-- ==== Sys2Proof/Word.lean ====
section
/-! DEFINITION. The plainest words of the model: link bytes, serials, axis vectors, timers and bit-coded
sets. Quantities of the manual that are exact integers (axes, angles, currents, times) are `Int` or `Nat`;
only what the manual itself sends or keeps as bits is a bit vector. -/

namespace Sys2Proof

/-- A byte of the companion link (10.1). -/
abbrev Byte := BitVec 8

/-- A keyboard base's 48-bit serial (4.2). -/
abbrev Serial := BitVec 48

/-- A pen's 32-bit serial (7.2). -/
abbrev PenSerial := BitVec 32

/-- A timer: idle, or running with the time on the millisecond timebase at which it expires. -/
abbrev Timer := Option Nat

/-- Three signed axis values in counts, 4096 counts to 1 g (R1). -/
structure Vec3 where
  x : Int
  y : Int
  z : Int
  deriving DecidableEq, Repr

/-- Membership of index `i` in a bit-coded set (R193: bit 0 stands for the first member listed). -/
def bitHas {n : Nat} (s : BitVec n) (i : Nat) : Bool := s.getLsbD i

/-- The set with index `i` added. -/
def bitAdd {n : Nat} (s : BitVec n) (i : Nat) : BitVec n := s ||| BitVec.twoPow n i

/-- The set with index `i` taken out. -/
def bitDrop {n : Nat} (s : BitVec n) (i : Nat) : BitVec n := s &&& ~~~ BitVec.twoPow n i

end Sys2Proof
end

