-- ==== Sys2Proof/Machine/Types.lean ====
section
/-! DEFINITION. The vocabulary of the manual as plain data: enumerations, the settings records of Chapters 3
to 8, the paired-base table and the nonvolatile image (Chapter 11). Types only; the ranges, defaults and
checks stand in `Machine/Settings.lean`. -/

namespace Sys2Proof

/-- "Asserted and released" (conventions): the two levels of an input. -/
inductive Level where
  | released
  | asserted
  deriving DecidableEq, Repr

/-- The two hinge magnet inputs (1.7). -/
inductive Magnet where
  | lid
  | fold
  deriving DecidableEq, Repr

/-- Failure completions of a display read that the bus controller reports (R3). -/
inductive ReadFailure where
  | noAck
  | busError
  deriving DecidableEq, Repr

/-- What the latch switch LSW reads (R90). -/
inductive LatchPos where
  | opened
  | shut
  deriving DecidableEq, Repr

/-- The part modes chosen by SPU (R159). -/
inductive PartMode where
  | active
  | watch
  | halt
  deriving DecidableEq, Repr

/-- The reset kinds named by the reset cause record (R176). -/
inductive ResetKind where
  | powerOn
  | brownout
  | pin
  | soft
  deriving DecidableEq, Repr

/-! ## Posture and orientation (Chapter 3) -/

/-- Posture values, in the code order of the posture record (10.8). -/
inductive Posture where
  | unknown
  | closed
  | laptop
  | stand
  | tent
  | tablet
  | detached
  deriving DecidableEq, Repr

/-- Code of a posture value (R193, posture record byte 0). -/
def Posture.code : Posture → Nat
  | .unknown => 0
  | .closed => 1
  | .laptop => 2
  | .stand => 3
  | .tent => 4
  | .tablet => 5
  | .detached => 6

/-- Orientation values, in the code order of the posture record (10.8). -/
inductive Orientation where
  | landscape
  | portrait
  | landscapeFlipped
  | portraitFlipped
  | faceUp
  | faceDown
  | unknown
  deriving DecidableEq, Repr

/-- Code of an orientation value (R193, posture record byte 5). -/
def Orientation.code : Orientation → Nat
  | .landscape => 0
  | .portrait => 1
  | .landscapeFlipped => 2
  | .portraitFlipped => 3
  | .faceUp => 4
  | .faceDown => 5
  | .unknown => 6

/-- State of a lock machine (3.4); the orientation machine never is HELD. -/
inductive LockState where
  | acquiring
  | locked
  | held
  | halted
  deriving DecidableEq, Repr

/-- Code of a lock state (R193, posture record byte 1). -/
def LockState.code : LockState → Nat
  | .acquiring => 0
  | .locked => 1
  | .held => 2
  | .halted => 3

/-- The last abstain reason, NONE included (R43). -/
inductive Abstain where
  | none
  | motionD
  | motionB
  | hingeVertical
  | baseStale
  | basePaused
  | foldZone
  deriving DecidableEq, Repr

/-- Code of an abstain reason (R193, posture record byte 7). -/
def Abstain.code : Abstain → Nat
  | .none => 0
  | .motionD => 1
  | .motionB => 2
  | .hingeVertical => 3
  | .baseStale => 4
  | .basePaused => 5
  | .foldZone => 6

/-- The forcing situation (R35). -/
inductive Situation where
  | none
  | lid
  | noBase
  deriving DecidableEq, Repr

/-- Base status judged at a display sample (R11). -/
inductive BaseStatus where
  | none
  | paused
  | stale
  | moving
  | fresh
  deriving DecidableEq, Repr

/-- SFE's view of the base stream (R10). -/
inductive BaseView where
  | none
  | paused
  | running
  deriving DecidableEq, Repr

/-! ## Keyboard base and detach (Chapters 4 and 5) -/

/-- BM states (4.1). -/
inductive BmState where
  | absent
  | settling
  | powering
  | identifying
  | attached
  | refused
  | failed
  | detachAsked
  | releasing
  | closing
  deriving DecidableEq, Repr

/-- Identify phases (R64). -/
inductive Phase where
  | query1
  | cycling
  | query2
  deriving DecidableEq, Repr

/-- Stream states (4.4). -/
inductive Stream where
  | running
  | pausing
  | paused
  deriving DecidableEq, Repr

/-- The contents of an IDENT record (4.2). -/
structure Identity where
  serial : Serial
  model : BitVec 16
  /-- supply draw, 0..255 mA -/
  draw : Nat
  /-- base protocol revision, one byte -/
  revision : Nat
  deriving DecidableEq, Repr

/-- Records the part sends to the base on BTX (4.2). -/
inductive BaseTx where
  | identQuery
  | setPeriod (ms : Nat)
  | quiesce
  deriving DecidableEq, Repr

/-- Origin of a detach attempt (Chapter 5). -/
inductive Origin where
  | button
  | request
  deriving DecidableEq, Repr

/-- Consent path of a detach attempt (R83). -/
inductive ConsentPath where
  | host
  | standing
  deriving DecidableEq, Repr

/-- Deadline in force of the detach record (Chapter 5). -/
inductive Deadline where
  | none
  | consent
  | grantWait
  | openCheck
  | window
  | closeCheck
  deriving DecidableEq, Repr

/-- Closing reasons (R94). -/
inductive ClosingReason where
  | timedOut
  | cancelled
  | noPower
  deriving DecidableEq, Repr

/-- Outcomes of a detach attempt (Chapter 5). -/
inductive DetachOutcome where
  | detached
  | timedOut
  | denied
  | cancelled
  | noPower
  | latchStuck
  | consentTimeoutDenied
  deriving DecidableEq, Repr

/-- ALLOW or DENY (R85, R99). -/
inductive Consent where
  | allow
  | deny
  deriving DecidableEq, Repr

/-- Acceptance policy (R79). -/
inductive BasePolicy where
  | accept
  | refuse
  deriving DecidableEq, Repr

/-- Reasons carried by the BASE_LOST event (R66, R73). -/
inductive LossReason where
  | presence
  | noPower
  deriving DecidableEq, Repr

/-- The values of DLED (conventions, R82). -/
inductive Lamp where
  | off
  | on
  | blink
  deriving DecidableEq, Repr

/-! ## Rail, supply and pen (Chapters 6 and 7) -/

/-- Supply bands (6.2). -/
inductive Supply where
  | normal
  | low
  | critical
  deriving DecidableEq, Repr

/-- Thermal bands (6.2). -/
inductive Thermal where
  | cool
  | warm
  deriving DecidableEq, Repr

/-- PDC states (Chapter 7). -/
inductive PdcState where
  | empty
  | settling
  | identifying
  | precharge
  | charge
  | topoff
  | waitGrant
  | full
  | suspended
  | fault
  deriving DecidableEq, Repr

/-- The three charging phases (R127). -/
inductive ChargePhase where
  | precharge
  | charge
  | topoff
  deriving DecidableEq, Repr

/-- Suspend reasons (R133). -/
inductive SuspendReason where
  | temp
  | supply
  | host
  deriving DecidableEq, Repr

/-- Index of a suspend reason in the suspend-reason set. -/
def SuspendReason.idx : SuspendReason → Nat
  | .temp => 0
  | .supply => 1
  | .host => 2

/-- Fault reasons of PDC (R139). -/
inductive PenFault where
  | noResponse
  | cell
  | prechargeTimer
  | safetyTimer
  deriving DecidableEq, Repr

/-- A PEN_STATUS record (7.2). -/
structure PenStatus where
  serial : PenSerial
  /-- cell voltage in mV -/
  cell : Nat
  /-- pen temperature in °C -/
  temp : Int
  /-- state of charge in % -/
  charge : Nat
  cellFault : Bool
  deriving DecidableEq, Repr

/-! ## Sleep and wake (Chapter 8) -/

/-- Host power states (R145). -/
inductive HostView where
  | running
  | suspending
  | suspended
  | off
  deriving DecidableEq, Repr

/-- SPU states (Chapter 8). -/
inductive SpuState where
  | awake
  | advised
  | suspending
  | asleep
  | waking
  | off
  deriving DecidableEq, Repr

/-- Sleep advice triggers (8.2). -/
inductive Trigger where
  | lid
  | faceDown
  | supply
  deriving DecidableEq, Repr

/-- Index of a trigger's reason in the advised-reason set. -/
def Trigger.idx : Trigger → Nat
  | .lid => 0
  | .faceDown => 1
  | .supply => 2

/-- Wake causes in the order of the table in 8.3. -/
inductive WakeCause where
  | lidOpened
  | penRemoved
  | penInserted
  | baseAttached
  | detachButton
  | postureChanged
  deriving DecidableEq, Repr

/-- Index of a wake cause (8.3, R193). -/
def WakeCause.idx : WakeCause → Nat
  | .lidOpened => 0
  | .penRemoved => 1
  | .penInserted => 2
  | .baseAttached => 3
  | .detachButton => 4
  | .postureChanged => 5

/-- ENABLED or DISABLED. -/
inductive Enable where
  | enabled
  | disabled
  deriving DecidableEq, Repr

/-! ## Settings records -/

/-- The tuning record (3.9). -/
structure Tuning where
  depth : Nat
  hall : Nat
  divider : Nat
  hingeFloor : Nat
  tiltFloor : Nat
  postureAcquire : Nat
  postureChange : Nat
  orientAcquire : Nat
  orientChange : Nat
  postureMargin : Nat
  standTentMargin : Nat
  orientMargin : Nat
  staleLimit : Nat
  deriving DecidableEq, Repr

/-- The sleep policy (Chapter 8). -/
structure SleepPolicy where
  lid : Enable
  faceDown : Enable
  supply : Enable
  lidGrace : Nat
  faceDownTime : Nat
  lidConfirm : Nat
  wakeTimeout : Nat
  attemptLimit : Nat
  /-- track in sleep -/
  track : Bool
  deriving DecidableEq, Repr

/-- One row of the wake-cause table: enable and posture mask, bit n for the posture of code n (8.3). -/
structure WakeEntry where
  enable : Enable
  mask : BitVec 7
  deriving DecidableEq, Repr

/-- The wake-cause table (8.3). -/
structure WakeTable where
  lidOpened : WakeEntry
  penRemoved : WakeEntry
  penInserted : WakeEntry
  baseAttached : WakeEntry
  detachButton : WakeEntry
  postureChanged : WakeEntry
  deriving DecidableEq, Repr

/-- The row of a cause. -/
def WakeTable.get (t : WakeTable) : WakeCause → WakeEntry
  | .lidOpened => t.lidOpened
  | .penRemoved => t.penRemoved
  | .penInserted => t.penInserted
  | .baseAttached => t.baseAttached
  | .detachButton => t.detachButton
  | .postureChanged => t.postureChanged

/-- The detach policy (Chapter 5). -/
structure DetachPolicy where
  standing : Consent
  timeoutAction : Consent
  consentTimeout : Nat
  window : Nat
  deriving DecidableEq, Repr

/-- The pen settings (Chapter 7). -/
structure PenSettings where
  enable : Enable
  maxCurrent : Nat
  recharge : Nat
  termination : Nat
  /-- safety limit in minutes -/
  safety : Nat
  deriving DecidableEq, Repr

/-- An entry of the paired-base table (4.6); its rank is its place in the list, from 1. -/
structure BaseEntry where
  serial : Serial
  model : BitVec 16
  offset : Int
  deriving DecidableEq, Repr

/-- The working settings (Chapter 11). The table lists its entries in rank order from 1. -/
structure Settings where
  tuning : Tuning
  sleep : SleepPolicy
  wake : WakeTable
  detach : DetachPolicy
  basePolicy : BasePolicy
  pen : PenSettings
  table : List BaseEntry
  deriving DecidableEq, Repr

/-! ## The same records with unchecked enumerations

A request payload and the nonvolatile image hold an enumeration as a byte that may name no value (10.8, R194);
the raw records keep that byte's number. -/

/-- A sleep policy whose enumerations are unchecked. -/
structure RawSleep where
  lid : Nat
  faceDown : Nat
  supply : Nat
  lidGrace : Nat
  faceDownTime : Nat
  lidConfirm : Nat
  wakeTimeout : Nat
  attemptLimit : Nat
  track : Nat
  deriving DecidableEq, Repr

/-- A wake-cause row whose enable and mask bits are unchecked. -/
structure RawWakeEntry where
  enable : Nat
  mask : Nat
  deriving DecidableEq, Repr

/-- A detach policy whose enumerations are unchecked. -/
structure RawDetach where
  standing : Nat
  timeoutAction : Nat
  consentTimeout : Nat
  window : Nat
  deriving DecidableEq, Repr

/-- Pen settings whose enable is unchecked. -/
structure RawPen where
  enable : Nat
  maxCurrent : Nat
  recharge : Nat
  termination : Nat
  safety : Nat
  deriving DecidableEq, Repr

/-- A stored table entry with its rank written out (4.6). -/
structure RawEntry where
  serial : Serial
  model : BitVec 16
  offset : Int
  rank : Nat
  deriving DecidableEq, Repr

/-- The content of the nonvolatile image: the stored records of Chapter 11, unchecked. -/
structure RawSettings where
  tuning : Tuning
  sleep : RawSleep
  wake : List RawWakeEntry
  detach : RawDetach
  basePolicy : Nat
  pen : RawPen
  table : List RawEntry
  deriving DecidableEq, Repr

/-- The nonvolatile image: its content and its 16-bit checksum (Chapter 11). -/
structure Image where
  content : RawSettings
  checksum : BitVec 16
  deriving DecidableEq, Repr

end Sys2Proof
end

