-- ==== Sys2Proof/Syntax.lean ====
section
/-! DEFINITION. The commands of the part: one constructor per row of spec/opcode_table.json, with the operands
the rules give it. A request row is the arrival of the last byte of a good frame of that kind (R179, R180), with
the frame's tag and payload bytes. -/

namespace Sys2Proof

/-- A step the outside world can make the part take. -/
inductive Instr where
  /-- VDD comes up from off (R176). -/
  | powerOn
  /-- VDD falls below its operating level and recovers (R176). -/
  | brownout
  /-- the host asserts NRST (R176) -/
  | nrstAsserted
  /-- the host releases NRST (R176, R194) -/
  | nrstReleased
  /-- the display reader's period timer expires (R2) -/
  | displayPeriodExpiry
  /-- a display read completes with SAMPLE and the three raw axis values (R3, R15) -/
  | displayReadSample (x y z : Int)
  /-- a display read completes with NO_ACK or BUS_ERROR (R3, R4) -/
  | displayReadFailure (cause : ReadFailure)
  /-- 10 ms after its start a display read has not ended (R3) -/
  | displayReadTimeout
  /-- the raw level of LIDH or FOLDH becomes `level` (R17) -/
  | magnetLevelChange (magnet : Magnet) (level : Level)
  /-- a magnet hold timer expires (R17, R18) -/
  | hallDebounceExpiry (magnet : Magnet)
  /-- request kind 0x06 (R16) -/
  | getVectors (tag : Byte) (payload : List Byte)
  /-- request kind 0x05 (R56) -/
  | getPosture (tag : Byte) (payload : List Byte)
  /-- request kind 0x07 (R53) -/
  | setRotationLock (tag : Byte) (payload : List Byte)
  /-- request kind 0x08 (R58) -/
  | setTuning (tag : Byte) (payload : List Byte)
  /-- the raw BPRES level becomes `level` (R60, R61) -/
  | bpresChange (level : Level)
  /-- the 100 ms settle timer of BM expires (R62) -/
  | baseSettleTimerExpiry
  /-- the 20 ms loss timer expires (R61) -/
  | baseGone
  /-- the 500 ms query timer expires (R64, R65) -/
  | queryTimerExpiry
  /-- the 50 ms cycling timer expires (R64) -/
  | cyclingTimerExpiry
  /-- an IDENT record arrives on BRX (R63, R66) -/
  | ident (serial : Serial) (model : BitVec 16) (draw revision : Nat)
  /-- a BASE_SAMPLE record arrives on BRX (R10, R63) -/
  | baseSample (x y z : Int)
  /-- a QUIESCED record arrives on BRX (R63, R71) -/
  | quiesced
  /-- the 50 ms quiesce timer expires (R71) -/
  | quiesceTimerExpiry
  /-- a record on BRX that fails its check, is cut short or is unknown (R63) -/
  | baseLinkRecordDiscard
  /-- request kind 0x0A (R75) -/
  | listBases (tag : Byte) (payload : List Byte)
  /-- request kind 0x0B (R76) -/
  | forgetBase (tag : Byte) (payload : List Byte)
  /-- request kind 0x0C (R77) -/
  | setBaseOffset (tag : Byte) (payload : List Byte)
  /-- request kind 0x0D (R70) -/
  | acceptBase (tag : Byte) (payload : List Byte)
  /-- request kind 0x0E (R79) -/
  | setBasePolicy (tag : Byte) (payload : List Byte)
  /-- request kind 0x09 (R78) -/
  | calibrateHinge (tag : Byte) (payload : List Byte)
  /-- the raw DBTN level becomes `level` (R81) -/
  | dbtnChange (level : Level)
  /-- the 50 ms button hold timer expires (R81) -/
  | buttonHoldExpiry
  /-- request kind 0x10 (R85) -/
  | detachConsent (tag : Byte) (payload : List Byte)
  /-- request kind 0x0F (R88) -/
  | requestDetach (tag : Byte) (payload : List Byte)
  /-- the consent timer expires (R86) -/
  | consentTimerExpiry
  /-- the 1000 ms GRANT_WAIT timer expires (R89) -/
  | grantWaitExpiry
  /-- LSW comes to read `pos` (R90, R94) -/
  | lswChange (pos : LatchPos)
  /-- the 150 ms open check times out (R90) -/
  | openCheckExpiry
  /-- the release window expires (R91) -/
  | releaseWindowExpiry
  /-- the 150 ms close check times out (R94) -/
  | closeCheckExpiry
  /-- the 2000 ms blink timer expires (R82) -/
  | blinkTimerExpiry
  /-- request kind 0x11 (R99) -/
  | setDetachPolicy (tag : Byte) (payload : List Byte)
  /-- SM's period timer expires (R101) -/
  | scanPeriodExpiry
  /-- a scan completes with VSYS in mV, die temperature in °C and pen current in mA (R103) -/
  | scanCompletion (vsys : Nat) (temp : Int) (pen : Nat)
  /-- request kind 0x12 (R110) -/
  | getSupply (tag : Byte) (payload : List Byte)
  /-- the raw PDET level becomes `level` (R120, R121) -/
  | pdetChange (level : Level)
  /-- the 200 ms pen settle timer expires (R120) -/
  | penSettleTimerExpiry
  /-- the 50 ms removal timer expires (R121, R122) -/
  | penRemoval
  /-- the poll timer expires (R123) -/
  | pollTimerExpiry
  /-- the 50 ms response timer expires (R125) -/
  | responseTimerExpiry
  /-- a PEN_STATUS arrives on PLINE, intact or failing its check (R124, R126) -/
  | penStatus (intact : Bool) (status : PenStatus)
  /-- the precharge time reaches 30 min (R138) -/
  | prechargeTimerExpiry
  /-- the cycle charge time reaches the cycle safety limit (R138) -/
  | safetyTimerExpiry
  /-- request kind 0x13 (R140) -/
  | getPen (tag : Byte) (payload : List Byte)
  /-- request kind 0x14 (R143) -/
  | setPenCharging (tag : Byte) (payload : List Byte)
  /-- request kind 0x15 (R145, R146) -/
  | hostState (tag : Byte) (payload : List Byte)
  /-- the timer of a LID or FACE_DOWN trigger expires (R147) -/
  | triggerTimerExpiry (trigger : Trigger)
  /-- the lid-confirm timer expires (R153) -/
  | lidConfirmTimerExpiry
  /-- the wake timer expires (R156, R157) -/
  | wakeTimerExpiry
  /-- the 100 ms gap timer expires (R156) -/
  | gapTimerExpiry
  /-- request kind 0x16 (R161) -/
  | getSleep (tag : Byte) (payload : List Byte)
  /-- request kind 0x17 (R162) -/
  | setSleepPolicy (tag : Byte) (payload : List Byte)
  /-- request kind 0x18 (R163) -/
  | setWakeCauses (tag : Byte) (payload : List Byte)
  /-- request kind 0x1B (R167) -/
  | clearConditions (tag : Byte) (payload : List Byte)
  /-- request kind 0x19 (R174) -/
  | getConditions (tag : Byte) (payload : List Byte)
  /-- request kind 0x1A (R172) -/
  | getHistory (tag : Byte) (payload : List Byte)
  /-- a whole second elapses (R175) -/
  | uptimeTick
  /-- a byte outside 2..126 arrives as LEN (R178) -/
  | lengthByteAbandon (byte : Byte)
  /-- the 5 ms gap timer of the assembler expires (R178) -/
  | rxGapTimeout
  /-- a frame ends with a wrong CHECK byte (R179) -/
  | frameReject
  /-- a good frame whose KIND is no request kind (R180) -/
  | unknownKindFrame (kind tag : Byte) (payload : List Byte)
  /-- the last byte of the frame being sent leaves TXD (R183) -/
  | txFrameDone
  /-- request kind 0x01 (R191) -/
  | identify (tag : Byte) (payload : List Byte)
  /-- request kind 0x02 (R185) -/
  | subscribe (tag : Byte) (payload : List Byte)
  /-- request kind 0x03 (R186) -/
  | unsubscribe (tag : Byte) (payload : List Byte)
  /-- request kind 0x04 (R191) -/
  | resetPart (tag : Byte) (payload : List Byte)
  /-- request kind 0x1C (R197) -/
  | saveSettings (tag : Byte) (payload : List Byte)
  /-- request kind 0x1D (R198) -/
  | restoreDefaults (tag : Byte) (payload : List Byte)
  /-- the write of the image completes; `some` when the array then holds something else than what was
  written (R195) -/
  | commitWriteDone (faulty : Option Image)
  /-- the read-back comparison completes (R195) -/
  | commitVerifyDone
  /-- a byte arrives on RXD (R178, R179) -/
  | rxdByte (byte : Byte)
  deriving DecidableEq, Repr

end Sys2Proof
end

