-- ==== Sys2Proof/Machine/Records.lean ====
section
/-! DEFINITION. What travels on the companion link, as plain data: request kinds, result codes, the records that
replies and events carry (10.7), refusals and the frames the transmitter sends. Types, and the fixed codes of 10.8. -/

namespace Sys2Proof

/-! ## Requests -/

/-- The 29 request kinds, in the order of the request catalogue (10.7). -/
inductive ReqKind where
  | identify
  | subscribe
  | unsubscribe
  | resetPart
  | getPosture
  | getVectors
  | setRotationLock
  | setTuning
  | calibrateHinge
  | listBases
  | forgetBase
  | setBaseOffset
  | acceptBase
  | setBasePolicy
  | requestDetach
  | detachConsent
  | setDetachPolicy
  | getSupply
  | getPen
  | setPenCharging
  | hostState
  | getSleep
  | setSleepPolicy
  | setWakeCauses
  | getConditions
  | getHistory
  | clearConditions
  | saveSettings
  | restoreDefaults
  deriving DecidableEq, Repr

/-- The blocks that own requests (10.7). -/
inductive Owner where
  | lc
  | pe
  | sfe
  | bm
  | sm
  | pdc
  | spu
  | cm
  | ss
  deriving DecidableEq, Repr

/-- Result codes of replies and refusals (R184). -/
inductive Result where
  | ok
  | clamped
  | badLength
  | unknownKind
  | badValue
  | wrongState
  | notGranted
  | busy
  | version
  deriving DecidableEq, Repr

/-- Event classes (10.4). -/
inductive EventClass where
  | posture
  | base
  | detach
  | pen
  | supply
  | sleep
  | condition
  | vectors
  deriving DecidableEq, Repr

/-- Class set bit of an event class (10.8). -/
def EventClass.idx : EventClass → Nat
  | .posture => 0
  | .base => 1
  | .detach => 2
  | .pen => 3
  | .supply => 4
  | .sleep => 5
  | .condition => 6
  | .vectors => 7

/-! ## Conditions (Chapter 9) -/

/-- The 14 conditions in code order. -/
inductive Cond where
  | dsensFault
  | baseSamplesLate
  | baseLost
  | baseIdFail
  | latchStuck
  | penNoResponse
  | penCellFault
  | penTimer
  | supplyLow
  | supplyCritical
  | thermalWarm
  | hostWakeFail
  | storeCorrupt
  | storeWriteFail
  deriving DecidableEq, Repr

/-- Index of a condition in a set of condition codes: bit c − 1 for code c (R193). -/
def Cond.idx : Cond → Nat
  | .dsensFault => 0
  | .baseSamplesLate => 1
  | .baseLost => 2
  | .baseIdFail => 3
  | .latchStuck => 4
  | .penNoResponse => 5
  | .penCellFault => 6
  | .penTimer => 7
  | .supplyLow => 8
  | .supplyCritical => 9
  | .thermalWarm => 10
  | .hostWakeFail => 11
  | .storeCorrupt => 12
  | .storeWriteFail => 13

/-- State kind, with a live flag, or occurrence kind (9.1). -/
def Cond.isState : Cond → Bool
  | .baseLost | .latchStuck | .hostWakeFail | .storeCorrupt | .storeWriteFail => false
  | _ => true

/-- A history record (9.3). -/
structure HistoryRecord where
  seq : BitVec 16
  cond : Cond
  detail : Nat
  uptime : BitVec 32
  posture : Posture
  host : HostView
  earlier : Bool
  deriving DecidableEq, Repr

/-! ## Records carried by replies and events -/

/-- The posture record (R56). -/
structure PostureRecord where
  posture : Posture
  lock : LockState
  fresh : Bool
  theta : Option Nat
  reported : Orientation
  computed : Orientation
  rotationLock : Bool
  abstain : Abstain
  sequence : BitVec 16
  serial : Option Serial
  deriving DecidableEq, Repr

/-- The content of a VECTORS event (R16). -/
structure VectorsRecord where
  displayRaw : Option Vec3
  displayFiltered : Option Vec3
  baseRaw : Option Vec3
  baseFiltered : Option Vec3
  deriving DecidableEq, Repr

/-- The content of the GET_VECTORS reply (R16). -/
structure VectorsStatus where
  vectors : VectorsRecord
  plausible : Option Bool
  moving : Bool
  lastStatus : Option BaseStatus
  failures : Nat
  fault : Bool
  late : Bool
  depth : Nat
  deriving DecidableEq, Repr

/-- One claim of the supply record (R110). -/
structure ClaimView where
  requested : Nat
  minimum : Nat
  grant : Nat
  deriving DecidableEq, Repr

/-- The supply record (R110). -/
structure SupplyRecord where
  vsys : Option Nat
  temp : Option Int
  penCurrent : Option Nat
  supply : Supply
  supplyCandidate : Option Supply
  thermal : Thermal
  thermalCandidate : Option Thermal
  capacity : Nat
  base : Option ClaimView
  latch : Option ClaimView
  pen : Option ClaimView
  total : Nat
  deriving DecidableEq, Repr

/-- The pen record (R140). -/
structure PenRecord where
  state : PdcState
  remembered : Option ChargePhase
  reasons : BitVec 3
  fault : Option PenFault
  last : Option PenStatus
  grant : Nat
  setpoint : Nat
  chargeSeconds : Nat
  deriving DecidableEq, Repr

/-- The content of the LIST_BASES reply (R75, R98). -/
structure BasesRecord where
  state : BmState
  stream : Option Stream
  active : Option Serial
  identity : Option Identity
  policy : BasePolicy
  table : List BaseEntry
  origin : Option Origin
  path : Option ConsentPath
  deadline : Deadline
  closing : Option ClosingReason
  outcome : Option DetachOutcome
  deriving DecidableEq, Repr

/-- The content of the GET_SLEEP reply (R161). -/
structure SleepRecord where
  host : HostView
  state : SpuState
  mode : PartMode
  advised : BitVec 3
  lidHolds : Bool
  lidMatured : Bool
  faceDownHolds : Bool
  faceDownMatured : Bool
  supplyHolds : Bool
  supplyMatured : Bool
  pending : BitVec 6
  causes : BitVec 6
  /-- absent outside WAKING -/
  attempt : Option Nat
  limit : Option Nat
  hwake : Bool
  policy : SleepPolicy
  wake : WakeTable
  deriving DecidableEq, Repr

/-- The content of the GET_CONDITIONS reply (R174); a live flag is absent for an occurrence kind, as
`Cond.isState` says. -/
structure ConditionsRecord where
  live : BitVec 14
  latched : BitVec 14
  count : Nat
  next : BitVec 16
  cause : ResetKind
  uptime : BitVec 32
  deriving DecidableEq, Repr

/-- What follows the result in a reply (R184), by the rule of each request. -/
inductive Content where
  | none
  /-- R191 -/
  | identity (partCode major minor : Nat) (grant : BitVec 8) (cause : ResetKind) (uptime : BitVec 32)
  /-- R185; the revision 2.3 is fixed -/
  | subscription (grant : BitVec 8)
  | posture (r : PostureRecord)
  | vectors (r : VectorsStatus)
  /-- R53 -/
  | rotation (on : Bool) (reported : Orientation)
  | tuning (t : Tuning)
  /-- R78 -/
  | calibration (theta : Nat) (oldOffset newOffset : Int)
  | bases (r : BasesRecord)
  /-- R77: the entry with its rank (4.6) -/
  | entry (e : BaseEntry) (rank : Nat)
  /-- R70: the entry with its rank (4.6) -/
  | admitted (e : BaseEntry) (rank : Nat) (evicted : Option Serial)
  | detachPolicy (p : DetachPolicy)
  | supply (r : SupplyRecord)
  | pen (r : PenRecord) (settings : PenSettings)
  | penSettings (p : PenSettings)
  /-- R145 -/
  | host (view : HostView) (state : SpuState)
  | sleep (r : SleepRecord)
  | sleepPolicy (p : SleepPolicy)
  | wakeTable (t : WakeTable)
  | conditions (r : ConditionsRecord)
  /-- R172 -/
  | history (count start : Nat) (records : List HistoryRecord)
  /-- R167 -/
  | cleared (kept latched : BitVec 14)
  /-- R197 -/
  | saved (written : Bool) (attempts : Nat)
  deriving DecidableEq, Repr

/-- A reply: its result code and content (R184). -/
structure Reply where
  result : Result
  content : Content
  deriving DecidableEq, Repr

/-- An event with its content (10.7). The serials are those of the active base, which is present whenever a
rule offers the event. -/
inductive Event where
  | postureChanged (r : PostureRecord)
  | orientationChanged (r : PostureRecord)
  | penState (r : PenRecord)
  | supplyBand (r : SupplyRecord)
  | vectors (r : VectorsRecord)
  | baseAttached (identity : Identity) (rank : Nat) (offset : Int) (isNew : Bool) (evicted : Option Serial)
  | baseDetached (serial : Option Serial)
  | baseLost (reason : LossReason) (serial : Option Serial)
  | baseRefused (serial : Serial) (model : BitVec 16)
  | detachRequest (serial : Option Serial) (timeout : Nat) (action : Consent)
  | detachResult (outcome : DetachOutcome) (origin : Option Origin) (path : Option ConsentPath) (serial : Option Serial)
  | sleepAdvice (joining advised : BitVec 3)
  | adviceWithdrawn
  | wakeReport (causes : BitVec 6) (attempts : Nat)
  | condition (r : HistoryRecord) (live : Option Bool)
  deriving DecidableEq, Repr

/-- The event kinds, for comparing entries of the event queue (R189). -/
inductive EventKind where
  | postureChanged
  | orientationChanged
  | penState
  | supplyBand
  | vectors
  | baseAttached
  | baseDetached
  | baseLost
  | baseRefused
  | detachRequest
  | detachResult
  | sleepAdvice
  | adviceWithdrawn
  | wakeReport
  | condition
  deriving DecidableEq, Repr

/-- The kind of an event. -/
def Event.kind : Event → EventKind
  | .postureChanged _ => .postureChanged
  | .orientationChanged _ => .orientationChanged
  | .penState _ => .penState
  | .supplyBand _ => .supplyBand
  | .vectors _ => .vectors
  | .baseAttached .. => .baseAttached
  | .baseDetached _ => .baseDetached
  | .baseLost .. => .baseLost
  | .baseRefused .. => .baseRefused
  | .detachRequest .. => .detachRequest
  | .detachResult .. => .detachResult
  | .sleepAdvice .. => .sleepAdvice
  | .adviceWithdrawn => .adviceWithdrawn
  | .wakeReport .. => .wakeReport
  | .condition .. => .condition

/-- State kinds are coalesced in place, occurrence kinds are all kept (10.5). -/
def EventKind.isState : EventKind → Bool
  | .postureChanged | .orientationChanged | .penState | .supplyBand | .vectors => true
  | _ => false

/-- The class of an event kind (10.4). -/
def EventKind.cls : EventKind → EventClass
  | .postureChanged | .orientationChanged => .posture
  | .penState => .pen
  | .supplyBand => .supply
  | .vectors => .vectors
  | .baseAttached | .baseDetached | .baseLost | .baseRefused => .base
  | .detachRequest | .detachResult => .detach
  | .sleepAdvice | .adviceWithdrawn | .wakeReport => .sleep
  | .condition => .condition

/-- KIND byte of an event: 0x41 to 0x4F in catalogue order (R193). -/
def EventKind.code : EventKind → Nat
  | .postureChanged => 0x41
  | .orientationChanged => 0x42
  | .penState => 0x43
  | .supplyBand => 0x44
  | .vectors => 0x45
  | .baseAttached => 0x46
  | .baseDetached => 0x47
  | .baseLost => 0x48
  | .baseRefused => 0x49
  | .detachRequest => 0x4A
  | .detachResult => 0x4B
  | .sleepAdvice => 0x4C
  | .adviceWithdrawn => 0x4D
  | .wakeReport => 0x4E
  | .condition => 0x4F

/-! ## Refusals and frames -/

/-- An item of the refusal slot (R182). -/
inductive RefusalItem where
  | busy (kind : ReqKind) (tag : Byte)
  | badLength (kind : ReqKind) (tag : Byte)
  | unknownKind (kind tag : Byte)
  /-- the FRAME_REJECT notice -/
  | frameReject
  deriving DecidableEq, Repr

/-- A frame that the transmitter sends (R183). -/
inductive TxFrame where
  | reply (kind : ReqKind) (tag : Byte) (r : Reply)
  | refusal (r : RefusalItem)
  /-- an event and the lost flag of its header (R190) -/
  | event (lost : Bool) (e : Event)
  deriving DecidableEq, Repr

/-- Is the frame an event frame (R181, R183). -/
def TxFrame.isEvent : TxFrame → Bool
  | .event .. => true
  | _ => false

end Sys2Proof
end

