-- ==== Sys2Proof/Config.lean ====
section
/-! DEFINITION. What the manual leaves open, as constants with no body. Nothing in Lean can evaluate them, so a
claim holds whatever they are (notes/assumptions/1.md, 2.md). -/

namespace Sys2Proof

/-- FREE VALUE. Of two reports that the manual lets reach their owners "in no order among themselves" (R62, R107,
R115, R142, R152, R170), is the first named taken first? Applied to a counter of State, so that each occasion has
its own answer. It also says whether a SOFT reset still stands when the next command comes (notes/assumptions/15.md). -/
opaque Config.firstTaken : Nat → Bool

/-- FREE VALUE. The bytes of a reply content whose layout the manual does not give (scope file: layouts are given
for the SUBSCRIBE reply, the result codes, class sets and the posture record only). -/
opaque Config.contentBytes : Content → List Byte

/-- FREE VALUE. The bytes of an event content whose layout the manual does not give. -/
opaque Config.eventBytes : Event → List Byte

end Sys2Proof
end

