-- ==== Sys2Proof/Machine/Settings.lean ====
section
/-! DEFINITION. The settings records: their defaults, ranges and clamping (R19, R33, R58, R77, R99, R143, R162), the
check that a raw record names known values, and the nonvolatile image with its checksum (R194, R195). -/

namespace Sys2Proof.Machine

/-! ## Clamping and codes -/

/-- `x` clamped to the nearest end of `lo..hi` (conventions, "Settings"). -/
def clampNat (lo hi x : Nat) : Nat := max lo (min hi x)

/-- `x` clamped to the nearest end of `lo..hi`, signed. -/
def clampInt (lo hi x : Int) : Int := max lo (min hi x)

/-- 0 ENABLED, 1 DISABLED (10.8). -/
def enableOf : Nat → Option Enable
  | 0 => some .enabled
  | 1 => some .disabled
  | _ => none

/-- 0 ALLOW, 1 DENY (10.8). -/
def consentOf : Nat → Option Consent
  | 0 => some .allow
  | 1 => some .deny
  | _ => none

/-- 0 ACCEPT, 1 REFUSE (10.8). -/
def basePolicyOf : Nat → Option BasePolicy
  | 0 => some .accept
  | 1 => some .refuse
  | _ => none

/-- 0 OFF, 1 ON (10.8); also 0 NO, 1 YES. -/
def onOffOf : Nat → Option Bool
  | 0 => some false
  | 1 => some true
  | _ => none

/-- 0 RUNNING, 1 SUSPENDING, 2 SUSPENDED, 3 OFF (10.8). -/
def hostViewOf : Nat → Option HostView
  | 0 => some .running
  | 1 => some .suspending
  | 2 => some .suspended
  | 3 => some .off
  | _ => none

def enableCode : Enable → Nat
  | .enabled => 0
  | .disabled => 1

def consentCode : Consent → Nat
  | .allow => 0
  | .deny => 1

def basePolicyCode : BasePolicy → Nat
  | .accept => 0
  | .refuse => 1

def onOffCode : Bool → Nat
  | false => 0
  | true => 1

/-! ## Tuning record (3.9) -/

/-- The tuning record with every field at its default (3.9). -/
def defaultTuning : Tuning :=
  { depth := 2, hall := 30, divider := 5, hingeFloor := 1024, tiltFloor := 1536, postureAcquire := 3,
    postureChange := 6, orientAcquire := 2, orientChange := 4, postureMargin := 128, standTentMargin := 512,
    orientMargin := 240, staleLimit := 50 }

/-- Every field clamped to its range (R19, R33, R58). -/
def clampTuning (t : Tuning) : Tuning :=
  { depth := clampNat 0 4 t.depth, hall := clampNat 10 250 t.hall, divider := clampNat 1 50 t.divider,
    hingeFloor := clampNat 256 3072 t.hingeFloor, tiltFloor := clampNat 256 3072 t.tiltFloor,
    postureAcquire := clampNat 1 15 t.postureAcquire, postureChange := clampNat 1 15 t.postureChange,
    orientAcquire := clampNat 1 15 t.orientAcquire, orientChange := clampNat 1 15 t.orientChange,
    postureMargin := clampNat 0 320 t.postureMargin, standTentMargin := clampNat 0 2048 t.standTentMargin,
    orientMargin := clampNat 0 480 t.orientMargin, staleLimit := clampNat 10 250 t.staleLimit }

/-! ## Sleep policy and wake-cause table (Chapter 8) -/

/-- The sleep policy with every field at its default (Chapter 8). -/
def defaultSleep : SleepPolicy :=
  { lid := .enabled, faceDown := .enabled, supply := .enabled, lidGrace := 500, faceDownTime := 5000,
    lidConfirm := 300, wakeTimeout := 2000, attemptLimit := 3, track := false }

/-- Every time and the attempt limit clamped to its range (R162). -/
def clampSleep (p : SleepPolicy) : SleepPolicy :=
  { p with
    lidGrace := clampNat 0 10000 p.lidGrace, faceDownTime := clampNat 1000 60000 p.faceDownTime,
    lidConfirm := clampNat 0 2000 p.lidConfirm, wakeTimeout := clampNat 500 10000 p.wakeTimeout,
    attemptLimit := clampNat 1 5 p.attemptLimit }

/-- The record when each of its enumerations holds a known value. -/
def readSleep (r : RawSleep) : Option SleepPolicy :=
  match enableOf r.lid, enableOf r.faceDown, enableOf r.supply, onOffOf r.track with
  | some l, some f, some u, some t =>
    some { lid := l, faceDown := f, supply := u, lidGrace := r.lidGrace, faceDownTime := r.faceDownTime,
           lidConfirm := r.lidConfirm, wakeTimeout := r.wakeTimeout, attemptLimit := r.attemptLimit, track := t }
  | _, _, _, _ => none

def rawSleep (p : SleepPolicy) : RawSleep :=
  { lid := enableCode p.lid, faceDown := enableCode p.faceDown, supply := enableCode p.supply,
    lidGrace := p.lidGrace, faceDownTime := p.faceDownTime, lidConfirm := p.lidConfirm,
    wakeTimeout := p.wakeTimeout, attemptLimit := p.attemptLimit, track := onOffCode p.track }

/-- All seven posture values. -/
def allPostures : BitVec 7 := 0x7F#7

/-- The default wake-cause table (8.3). -/
def defaultWake : WakeTable :=
  { lidOpened := ⟨.enabled, allPostures⟩
    penRemoved := ⟨.enabled, bitDrop allPostures Posture.closed.code⟩
    penInserted := ⟨.disabled, allPostures⟩
    baseAttached := ⟨.enabled, allPostures⟩
    detachButton := ⟨.disabled, allPostures⟩
    postureChanged := ⟨.disabled, allPostures⟩ }

/-- A wake-cause row when its enable is known and its mask names posture values only (R163: bit 7 names none). -/
def readWakeEntry (r : RawWakeEntry) : Option WakeEntry :=
  match enableOf r.enable with
  | some e => if r.mask < 128 then some ⟨e, BitVec.ofNat 7 r.mask⟩ else none
  | none => none

def rawWakeEntry (e : WakeEntry) : RawWakeEntry := ⟨enableCode e.enable, e.mask.toNat⟩

/-- A whole wake-cause table from its six rows in the order of 8.3. -/
def readWake : List RawWakeEntry → Option WakeTable
  | [a, b, c, d, e, f] =>
    match readWakeEntry a, readWakeEntry b, readWakeEntry c, readWakeEntry d, readWakeEntry e, readWakeEntry f with
    | some a, some b, some c, some d, some e, some f => some ⟨a, b, c, d, e, f⟩
    | _, _, _, _, _, _ => none
  | _ => none

def rawWake (t : WakeTable) : List RawWakeEntry :=
  [rawWakeEntry t.lidOpened, rawWakeEntry t.penRemoved, rawWakeEntry t.penInserted, rawWakeEntry t.baseAttached,
   rawWakeEntry t.detachButton, rawWakeEntry t.postureChanged]

/-! ## Detach policy (Chapter 5) and pen settings (Chapter 7) -/

/-- The detach policy with every field at its default (R99). -/
def defaultDetach : DetachPolicy :=
  { standing := .allow, timeoutAction := .deny, consentTimeout := 2000, window := 3000 }

/-- Both times clamped to their ranges (R99). -/
def clampDetach (p : DetachPolicy) : DetachPolicy :=
  { p with consentTimeout := clampNat 500 10000 p.consentTimeout, window := clampNat 1000 5000 p.window }

def readDetach (r : RawDetach) : Option DetachPolicy :=
  match consentOf r.standing, consentOf r.timeoutAction with
  | some st, some ta => some ⟨st, ta, r.consentTimeout, r.window⟩
  | _, _ => none

def rawDetach (p : DetachPolicy) : RawDetach :=
  ⟨consentCode p.standing, consentCode p.timeoutAction, p.consentTimeout, p.window⟩

/-- The pen settings with every field at its default (R143). -/
def defaultPen : PenSettings :=
  { enable := .enabled, maxCurrent := 200, recharge := 90, termination := 15, safety := 180 }

/-- Every number clamped to its range (R143). -/
def clampPen (p : PenSettings) : PenSettings :=
  { p with
    maxCurrent := clampNat 50 250 p.maxCurrent, recharge := clampNat 50 98 p.recharge,
    termination := clampNat 5 50 p.termination, safety := clampNat 30 360 p.safety }

def readPen (r : RawPen) : Option PenSettings :=
  match enableOf r.enable with
  | some e => some ⟨e, r.maxCurrent, r.recharge, r.termination, r.safety⟩
  | none => none

def rawPen (p : PenSettings) : RawPen := ⟨enableCode p.enable, p.maxCurrent, p.recharge, p.termination, p.safety⟩

/-! ## The working settings and the image (Chapter 11) -/

/-- The defaults of every record, with an empty paired-base table (R194). -/
def defaultSettings : Settings :=
  { tuning := defaultTuning, sleep := defaultSleep, wake := defaultWake, detach := defaultDetach,
    basePolicy := .accept, pen := defaultPen, table := [] }

/-- The offset of a table entry is in −720..720 (4.6). -/
def offsetOk (c : Int) : Bool := decide (-720 ≤ c) && decide (c ≤ 720)

/-- The entry of rank `k` of a stored table. -/
def entryOfRank (es : List RawEntry) (k : Nat) : Option BaseEntry :=
  (es.find? fun e => e.rank == k).map fun e => ⟨e.serial, e.model, e.offset⟩

/-- R194's check of the stored table: at most 4 entries, pairwise different serials, ranks exactly 1..n, and each
offset in its range. -/
def tableOk (es : List RawEntry) : Bool :=
  decide (es.length ≤ 4) && decide ((es.map (·.serial)).Nodup) &&
  (List.range es.length).all (fun k => (entryOfRank es (k + 1)).isSome) && es.all (fun e => offsetOk e.offset)

/-- The stored table in rank order. -/
def readTable (es : List RawEntry) : List BaseEntry :=
  (List.range es.length).filterMap fun k => entryOfRank es (k + 1)

/-- The table entries from rank `k` on, with their ranks written out. -/
def rawTable : Nat → List BaseEntry → List RawEntry
  | _, [] => []
  | k, e :: es => ⟨e.serial, e.model, e.offset, k⟩ :: rawTable (k + 1) es

/-- The stored records of the working settings. -/
def rawSettings (s : Settings) : RawSettings :=
  { tuning := s.tuning, sleep := rawSleep s.sleep, wake := rawWake s.wake, detach := rawDetach s.detach,
    basePolicy := basePolicyCode s.basePolicy, pen := rawPen s.pen, table := rawTable 1 s.table }

/-- R194's second and third checks: every stored field in its range, every enumeration known, the table sound.
Out-of-range stored values are not clamped: a field that clamping would change fails the check. -/
def readSettings (r : RawSettings) : Option Settings :=
  match readSleep r.sleep, readWake r.wake, readDetach r.detach, basePolicyOf r.basePolicy, readPen r.pen with
  | some sl, some wk, some dt, some bp, some pn =>
    if clampTuning r.tuning = r.tuning ∧ clampSleep sl = sl ∧ clampDetach dt = dt ∧ clampPen pn = pn
        ∧ tableOk r.table = true then
      some { tuning := r.tuning, sleep := sl, wake := wk, detach := dt, basePolicy := bp, pen := pn,
             table := readTable r.table }
    else none
  | _, _, _, _, _ => none

/-- The `k` bytes of `n`, least significant first. -/
def leBytes : Nat → Nat → List Byte
  | 0, _ => []
  | k + 1, n => BitVec.ofNat 8 n :: leBytes k (n / 256)

/-- The content bytes of the image. DESIGN CHOICE (notes/assumptions/5.md): the manual gives the image no byte layout;
the records are laid out as their request payloads are in 10.8, each table entry as serial, model, offset, rank. -/
def imageBytes (r : RawSettings) : List Byte :=
  let t := r.tuning
  leBytes 1 t.depth ++ leBytes 1 t.hall ++ leBytes 1 t.divider ++ leBytes 2 t.hingeFloor ++ leBytes 2 t.tiltFloor ++
  leBytes 1 t.postureAcquire ++ leBytes 1 t.postureChange ++ leBytes 1 t.orientAcquire ++ leBytes 1 t.orientChange ++
  leBytes 2 t.postureMargin ++ leBytes 2 t.standTentMargin ++ leBytes 2 t.orientMargin ++ leBytes 1 t.staleLimit ++
  leBytes 1 r.sleep.lid ++ leBytes 1 r.sleep.faceDown ++ leBytes 1 r.sleep.supply ++ leBytes 2 r.sleep.lidGrace ++
  leBytes 2 r.sleep.faceDownTime ++ leBytes 2 r.sleep.lidConfirm ++ leBytes 2 r.sleep.wakeTimeout ++
  leBytes 1 r.sleep.attemptLimit ++ leBytes 1 r.sleep.track ++
  r.wake.flatMap (fun e => leBytes 1 e.enable ++ leBytes 1 e.mask) ++
  leBytes 1 r.detach.standing ++ leBytes 1 r.detach.timeoutAction ++ leBytes 2 r.detach.consentTimeout ++
  leBytes 2 r.detach.window ++ leBytes 1 r.basePolicy ++
  leBytes 1 r.pen.enable ++ leBytes 1 r.pen.maxCurrent ++ leBytes 1 r.pen.recharge ++ leBytes 1 r.pen.termination ++
  leBytes 2 r.pen.safety ++ leBytes 1 r.table.length ++
  r.table.flatMap (fun e => leBytes 6 e.serial.toNat ++ leBytes 2 e.model.toNat ++
    leBytes 2 (BitVec.ofInt 16 e.offset).toNat ++ leBytes 1 e.rank)

/-- The sum of the content bytes modulo 65536 (R194). -/
def imageSum (r : RawSettings) : BitVec 16 := BitVec.ofNat 16 ((imageBytes r).map BitVec.toNat).sum

/-- The image that a sound write of `s` leaves: the content, then the checksum of that content (R195). -/
def imageOf (s : Settings) : Image := { content := rawSettings s, checksum := imageSum (rawSettings s) }

/-- R194's first check. -/
def checksumOk (i : Image) : Bool := i.checksum == imageSum i.content

/-- The image marked invalid, so that it fails the checksum test (R195). -/
def markInvalid (i : Image) : Image := { i with checksum := imageSum i.content + 1#16 }

/-- The start-up load (R194): the working settings, and the detail byte of STORE_CORRUPT when the image is rejected. -/
def loadImage (i : Image) : Settings × Option Nat :=
  if checksumOk i = true then
    match readSettings i.content with
    | some s => (s, none)
    | none => (defaultSettings, some 2)
  else (defaultSettings, some 1)

end Sys2Proof.Machine
end

