-- ==== Sys2Proof/Machine/State.lean ====
section
/-! DEFINITION. The state of the part as plain data: the records that each chapter gives its block, the working
settings, the millisecond timebase, the lines to the base and the pen, and the queue of waiting commands; the state
after reset; the reasons a step can stop. -/

namespace Sys2Proof.Machine

/-! ## Sensor Front End (Chapter 1) -/

/-- Reader states (Chapter 1). -/
inductive ReaderState where
  | idle
  | reading
  | stopped
  deriving DecidableEq, Repr

/-- Debounce states of a magnet or button record (R17, R81). -/
inductive Debounce where
  | steady
  | changing
  deriving DecidableEq, Repr

/-- A magnet record (R17). -/
structure MagnetRec where
  raw : Level
  level : Level
  debounce : Debounce
  /-- hold time in force, ms -/
  hold : Nat
  timer : Timer
  deriving DecidableEq, Repr

/-- SFE's records (Chapter 1). A filter that is EMPTY is `none`, one that is LOADED holds its axes (R13). -/
structure Sfe where
  reader : ReaderState
  discard : Bool
  failures : Nat
  fault : Bool
  period : Timer
  /-- the 10 ms limit of the read in flight (R3) -/
  readLimit : Timer
  dFilter : Option Vec3
  dRaw : Option Vec3
  dPlausible : Option Bool
  bFilter : Option Vec3
  bRaw : Option Vec3
  moving : Bool
  lastArrival : Option Nat
  staleRun : Nat
  late : Bool
  lastStatus : Option BaseStatus
  view : BaseView
  lid : MagnetRec
  fold : MagnetRec
  divider : Nat
  deriving DecidableEq, Repr

/-! ## Posture Engine (Chapters 2 and 3) -/

/-- A lock machine (3.4). -/
structure Lock (α : Type) where
  state : LockState
  value : α
  pending : Option α
  run : Nat
  deriving DecidableEq, Repr

/-- PE's records (Chapters 2 and 3). -/
structure Pe where
  posture : Lock Posture
  orient : Lock Orientation
  situation : Situation
  halt : Bool
  fresh : Bool
  abstainRun : Nat
  lastAbstain : Abstain
  reported : Orientation
  closedFreeze : Orientation
  rotationLock : Bool
  lockValue : Orientation
  sequence : BitVec 16
  theta : Option Nat
  thetaCurrent : Bool
  serial : Option Serial
  offset : Int
  deriving DecidableEq, Repr

/-! ## Base Manager (Chapters 4 and 5) -/

/-- BM's base record (4.1). The amount of the BASE claim is in RBA's claim table. -/
structure Bm where
  state : BmState
  bpres : Level
  settle : Timer
  loss : Timer
  bpwr : Bool
  phase : Option Phase
  cycling : Timer
  queryOut : Bool
  query : Timer
  identity : Option Identity
  stream : Stream
  quiesce : Timer
  newEntry : Bool
  evicted : Option Serial
  active : Option Serial
  deriving DecidableEq, Repr

/-- BM's records for the detach sequence, with the pins it drives and watches (Chapter 5). -/
structure Det where
  dbtn : Level
  button : Level
  debounce : Debounce
  hold : Timer
  blink : Timer
  origin : Option Origin
  path : Option ConsentPath
  deadline : Deadline
  timer : Timer
  energised : Bool
  closing : Option ClosingReason
  unpowered : Bool
  outcome : Option DetachOutcome
  lsol : Bool
  lsw : LatchPos
  deriving DecidableEq, Repr

/-! ## Supply Monitor and Rail Budget Arbiter (Chapter 6) -/

/-- SM's records (Chapter 6). -/
structure Sm where
  scanning : Bool
  period : Timer
  /-- period in force, ms -/
  periodMs : Nat
  vsys : Option Nat
  temp : Option Int
  penCurrent : Option Nat
  supply : Supply
  supplyCandidate : Option Supply
  thermal : Thermal
  thermalCandidate : Option Thermal
  deriving DecidableEq, Repr

/-- A filed claim (6.6). -/
structure Claim where
  requested : Nat
  minimum : Nat
  deriving DecidableEq, Repr

/-- The grant table (R114). -/
structure Grants where
  base : Nat
  latch : Nat
  pen : Nat
  deriving DecidableEq, Repr

/-- RBA's records: capacity, claim table and grant table (Chapter 6). -/
structure Rba where
  capacity : Nat
  base : Option Claim
  latch : Option Claim
  pen : Option Claim
  grants : Grants
  deriving DecidableEq, Repr

/-! ## Pen Dock Controller (Chapter 7) -/

/-- PDC's records (Chapter 7). -/
structure Pdc where
  pdet : Level
  settle : Timer
  removal : Timer
  poll : Timer
  response : Timer
  outstanding : Bool
  misses : Nat
  state : PdcState
  remembered : Option ChargePhase
  reasons : BitVec 3
  fault : Option PenFault
  last : Option PenStatus
  grant : Nat
  setpoint : Nat
  cycleOpen : Bool
  /-- cycle charge time, ms -/
  chargeMs : Nat
  /-- precharge time, ms -/
  prechargeMs : Nat
  /-- cycle safety limit, minutes -/
  limitMin : Nat
  runStart : Option Nat
  deriving DecidableEq, Repr

/-! ## Sleep Policy Unit (Chapter 8) -/

/-- SPU's posture view (8.2). -/
structure PostureView where
  posture : Posture
  lock : LockState
  fresh : Bool
  reported : Orientation
  orientLock : LockState
  deriving DecidableEq, Repr

/-- A trigger record (8.2). -/
structure TriggerRec where
  holds : Bool
  timer : Timer
  matured : Bool
  deriving DecidableEq, Repr

/-- SPU's records (Chapter 8). -/
structure Spu where
  host : HostView
  state : SpuState
  view : PostureView
  lid : TriggerRec
  faceDown : TriggerRec
  supply : TriggerRec
  advised : BitVec 3
  pending : BitVec 6
  causes : BitVec 6
  lidConfirm : Timer
  attempt : Nat
  limit : Option Nat
  wake : Timer
  gap : Timer
  hwake : Bool
  mode : PartMode
  deriving DecidableEq, Repr

/-! ## Condition Monitor (Chapter 9) -/

/-- CM's records (Chapter 9); the ring lists its records oldest first. -/
structure Cm where
  live : BitVec 14
  latched : BitVec 14
  ring : List HistoryRecord
  next : BitVec 16
  cause : ResetKind
  uptime : BitVec 32
  deriving DecidableEq, Repr

/-! ## Link Controller (Chapter 10) -/

/-- States of the receive assembler (R178). -/
inductive AsmState where
  | hunt
  | length
  | body
  | check
  deriving DecidableEq, Repr

/-- The receive assembler (R178). -/
structure Asm where
  state : AsmState
  expected : Nat
  body : List Byte
  sum : Nat
  gap : Timer
  deriving DecidableEq, Repr

/-- Phases of a held request slot (R181); READY keeps the reply and the moment it became ready (R183). -/
inductive SlotPhase where
  | waiting
  | taken
  | ready (reply : Reply) (since : Nat)
  | sending
  deriving DecidableEq, Repr

/-- A held request slot (R181). `place` is which of the four slots it is; its owner is `ReqKind.owner` of its kind. -/
structure Slot where
  place : Nat
  kind : ReqKind
  tag : Byte
  payload : List Byte
  phase : SlotPhase
  deriving DecidableEq, Repr

/-- The occupied refusal slot (R182). -/
structure Refused where
  item : RefusalItem
  since : Nat
  sending : Bool
  deriving DecidableEq, Repr

/-- LC's records (Chapter 10). The held slots are listed in the order of acceptance; a free slot is not listed. -/
structure Lc where
  asm : Asm
  slots : List Slot
  refusal : Option Refused
  tx : Option TxFrame
  grant : BitVec 8
  queue : List Event
  lost : Bool
  /-- the reset gate is closed (R191) -/
  gateClosed : Bool
  /-- MODEL FIELD: how many moments at which something became ready have passed (R183, "whichever became ready first") -/
  moments : Nat
  deriving DecidableEq, Repr

/-! ## Settings Store (Chapter 11) -/

/-- States of the commit record (Chapter 11). -/
inductive CommitState where
  | idle
  | writing
  | verifying
  deriving DecidableEq, Repr

/-- Which commit a waiting save waits for (R197). -/
inductive SaveMark where
  | running
  | pending
  deriving DecidableEq, Repr

/-- A waiting save: the place of its request slot and its mark (R197). -/
structure Save where
  place : Nat
  mark : SaveMark
  deriving DecidableEq, Repr

/-- SS's records: the nonvolatile image and the commit record (Chapter 11). -/
structure Ss where
  image : Image
  state : CommitState
  attempt : Option Nat
  snapshot : Option Settings
  pending : Bool
  waiting : List Save
  deriving DecidableEq, Repr

/-! ## The whole state -/

/-- The state of the part. -/
structure State where
  /-- the millisecond timebase: ms since the last reset ended -/
  now : Nat
  /-- the time at which the next whole second of uptime falls (R175) -/
  nextSecond : Nat
  /-- the NRST pin -/
  nrst : Level
  /-- a reset that is held, by NRST or because a SOFT reset still stands, with the kind it will be recorded as (R176) -/
  held : Option ResetKind
  settings : Settings
  sfe : Sfe
  pe : Pe
  bm : Bm
  det : Det
  sm : Sm
  rba : Rba
  pdc : Pdc
  spu : Spu
  cm : Cm
  lc : Lc
  ss : Ss
  /-- records sent on BTX since the last reset, oldest first (4.2) -/
  btx : List BaseTx
  /-- STATUS_QUERY records sent on PLINE since the last reset (R123) -/
  queries : Nat
  /-- MODEL FIELD: how many free orders have been consulted (`Config.firstTaken`) -/
  choices : Nat
  /-- MODEL FIELD: the waiting commands, first in, first out -/
  pending : List Instr
  deriving DecidableEq, Repr

/-- Faults: none. The rules give every command an effect in every state, so no step of the model faults. -/
inductive Fault where
  deriving DecidableEq, Repr

/-- Refusals. -/
inductive Refusal where
  /-- Raised by `exec` for a command that has no meaning yet; safe, since the step then has no next state. -/
  | notModelled (mnemonic : String)
  deriving DecidableEq, Repr

/-! ## Reset -/

/-- A magnet record whose input is released at reset (R20). -/
def MagnetRec.released : MagnetRec :=
  { raw := .released, level := .released, debounce := .steady, hold := 30, timer := none }

/-- SFE after every reset with both magnet inputs released (R20). -/
def Sfe.reset : Sfe :=
  { reader := .idle, discard := false, failures := 0, fault := false, period := some 20, readLimit := none,
    dFilter := none, dRaw := none, dPlausible := none, bFilter := none, bRaw := none, moving := false,
    lastArrival := none, staleRun := 0, late := false, lastStatus := none, view := .none,
    lid := MagnetRec.released, fold := MagnetRec.released, divider := 0 }

/-- PE after every reset, before the first re-evaluation of forcing (R59, R21). -/
def Pe.initial : Pe :=
  { posture := { state := .acquiring, value := .unknown, pending := none, run := 0 }
    orient := { state := .acquiring, value := .unknown, pending := none, run := 0 }
    situation := .none, halt := false, fresh := false, abstainRun := 0, lastAbstain := .none,
    reported := .unknown, closedFreeze := .unknown, rotationLock := false, lockValue := .unknown,
    sequence := 0, theta := none, thetaCurrent := false, serial := none, offset := 0 }

/-- PE after the first re-evaluation of forcing: NO_BASE, DETACHED, HELD (R59, R36). -/
def Pe.reset : Pe :=
  { Pe.initial with
    posture := { state := .held, value := .detached, pending := none, run := 0 }, situation := .noBase }

/-- BM's base record after every reset with BPRES released (R80). -/
def Bm.reset : Bm :=
  { state := .absent, bpres := .released, settle := none, loss := none, bpwr := false, phase := none,
    cycling := none, queryOut := false, query := none, identity := none, stream := .running, quiesce := none,
    newEntry := false, evicted := none, active := none }

/-- BM's detach records after every reset with DBTN released and the latch shut (R81, R100). -/
def Det.reset : Det :=
  { dbtn := .released, button := .released, debounce := .steady, hold := none, blink := none, origin := none,
    path := none, deadline := .none, timer := none, energised := false, closing := none, unpowered := false,
    outcome := none, lsol := false, lsw := .shut }

/-- SM after every reset: a scan is started at its end (R118). -/
def Sm.reset : Sm :=
  { scanning := true, period := some 100, periodMs := 100, vsys := none, temp := none, penCurrent := none,
    supply := .normal, supplyCandidate := none, thermal := .cool, thermalCandidate := none }

/-- RBA after every reset (R119). -/
def Rba.reset : Rba :=
  { capacity := 600, base := none, latch := none, pen := none, grants := { base := 0, latch := 0, pen := 0 } }

/-- PDC after every reset with PDET released and the default pen settings (R144). -/
def Pdc.reset : Pdc :=
  { pdet := .released, settle := none, removal := none, poll := none, response := none, outstanding := false,
    misses := 0, state := .empty, remembered := none, reasons := 0, fault := none, last := none, grant := 0,
    setpoint := 0, cycleOpen := false, chargeMs := 0, prechargeMs := 0, limitMin := 180, runStart := none }

/-- A trigger record after reset (R164). -/
def TriggerRec.idle : TriggerRec := { holds := false, timer := none, matured := false }

/-- SPU's posture view at PE's reset values (R164). -/
def PostureView.initial : PostureView :=
  { posture := .unknown, lock := .acquiring, fresh := false, reported := .unknown, orientLock := .acquiring }

/-- SPU after every reset (R164), before the reports of the other blocks. -/
def Spu.initial : Spu :=
  { host := .running, state := .awake, view := PostureView.initial, lid := TriggerRec.idle,
    faceDown := TriggerRec.idle, supply := TriggerRec.idle, advised := 0, pending := 0, causes := 0,
    lidConfirm := none, attempt := 0, limit := none, wake := none, gap := none, hwake := false, mode := .active }

/-- SPU once PE has reported P as DETACHED (R164). -/
def Spu.reset : Spu :=
  { Spu.initial with view := { PostureView.initial with posture := .detached, lock := .held } }

/-- CM after a POWER_ON reset (R177). -/
def Cm.reset : Cm := { live := 0, latched := 0, ring := [], next := 0, cause := .powerOn, uptime := 0 }

/-- The receive assembler in HUNT (R192). -/
def Asm.hunt : Asm := { state := .hunt, expected := 0, body := [], sum := 0, gap := none }

/-- LC after every reset (R192). -/
def Lc.reset : Lc :=
  { asm := Asm.hunt, slots := [], refusal := none, tx := none, grant := 0, queue := [], lost := false,
    gateClosed := false, moments := 0 }

/-- The commit record after any reset (R194), over an image. -/
def Ss.ofImage (i : Image) : Ss :=
  { image := i, state := .idle, attempt := none, snapshot := none, pending := false, waiting := [] }

/-- The part right after a POWER_ON reset. DESIGN CHOICE (notes/assumptions/6.md, 7.md): the image holds the defaults
and passes its check, and every input reads released, the latch switch shut. -/
def State.reset : State :=
  { now := 0, nextSecond := 1000, nrst := .released, held := none, settings := defaultSettings,
    sfe := Sfe.reset, pe := Pe.reset, bm := Bm.reset, det := Det.reset, sm := Sm.reset, rba := Rba.reset,
    pdc := Pdc.reset, spu := Spu.reset, cm := Cm.reset, lc := Lc.reset, ss := Ss.ofImage (imageOf defaultSettings),
    btx := [], queries := 0, choices := 0, pending := [] }

end Sys2Proof.Machine
end

