-- ==== Sys2Proof/Machine/Ops.lean ====
section
/-! DEFINITION. The shared operations: the millisecond timebase, the free orders, the event queue and the
transmitter (10.3, 10.5), and the answer to a request (R181). -/

namespace Sys2Proof.Machine

/-! ## Time -/

/-- A time that grows by `d` toward a limit it does not pass (R137, R138). -/
def growTo (limit c d : Nat) : Nat := max c (min limit (c + d))

/-- Is PDC in one of the three charging states (R137). -/
def PdcState.charging : PdcState → Bool
  | .precharge | .charge | .topoff => true
  | _ => false

/-- The cycle times of R137 after `d` ms in the present PDC state. The growth stops at the limits of R138, where the
expiry is due: a cycle's charge time never exceeds its safety limit outside FAULT. -/
def Pdc.elapse (d : Nat) (p : Pdc) : Pdc :=
  if p.cycleOpen = true ∧ PdcState.charging p.state = true then
    { p with
      chargeMs := growTo (p.limitMin * 60000) p.chargeMs d
      prechargeMs := if p.state = .precharge then growTo 1800000 p.prechargeMs d else p.prechargeMs }
  else p

/-- `d` ms pass on the timebase. -/
def advance (d : Nat) (s : State) : State := { s with now := s.now + d, pdc := s.pdc.elapse d }

/-- Time passes until `t`, if `t` is still to come: a timeout expires no earlier than its time (conventions, "Time").
DESIGN CHOICE (notes/assumptions/3.md): an expiry command carries the passing of the rest of its time. -/
def runTo (t : Nat) (s : State) : State := advance (t - s.now) s

/-- A timer in the states in which the manual lets it run. -/
def whenIn (here : Bool) (t : Timer) : Timer := if here = true then t else none

/-- A timer's expiry is taken: the rest of its time passes and `f` acts. The expiry of an idle timer does not exist, and
changes nothing. -/
def onExpiry (t : Timer) (f : State → State) (s : State) : State :=
  match t with
  | none => s
  | some due => f (runTo due s)

/-- The end of an operation in flight is taken; where none is in flight there is no end, and nothing changes. -/
def onEnd (inFlight : Bool) (f : State → State) (s : State) : State := if inFlight = true then f s else s

/-! ## Free orders -/

/-- One free order is consulted. -/
def State.nextChoice (s : State) : State := { s with choices := s.choices + 1 }

/-- Two acts that the manual lets come in either order. -/
def eitherOrder (f g : State → State) (s : State) : State :=
  if Config.firstTaken s.choices = true then g (f s.nextChoice) else f (g s.nextChoice)

/-- An act that the manual lets come before an operation, or at the place in it that `op` has for such an act. -/
def eitherTime (act : State → State) (op : (State → State) → State → State) (s : State) : State :=
  if Config.firstTaken s.choices = true then op id (act s.nextChoice) else op act s.nextChoice

/-- Three acts that the manual lets come in any order. -/
def anyOrder (f g h : State → State) (s : State) : State :=
  if Config.firstTaken s.choices = true then eitherOrder g h (f s.nextChoice)
  else if Config.firstTaken (s.choices + 1) = true then eitherOrder f h (g s.nextChoice.nextChoice)
  else eitherOrder f g (h s.nextChoice.nextChoice)

/-- A message handed to LC (`emit`) and a block's act (`act`) whose messages, if it sends any, the manual does not
order against it. An act that sends none leaves no order to choose. -/
def raceLc (emit act : State → State) (s : State) : State :=
  if (act s).lc = s.lc then emit (act s) else eitherOrder emit act s

/-! ## Event queue (10.5) -/

/-- Does the queue hold an entry of this kind. -/
def hasKind (k : EventKind) (q : List Event) : Bool := q.any fun e => e.kind == k

/-- The content of the entry of the same kind is replaced in place (R189). -/
def replaceKind (e : Event) (q : List Event) : List Event := q.map fun x => if x.kind = e.kind then e else x

/-- The VECTORS entry is removed (R188, R189). -/
def dropVectors (q : List Event) : List Event := q.eraseP fun e => e.kind == .vectors

/-- A granted offer enters the queue, replaces an entry, or is dropped (R188, R189). -/
def Lc.enqueue (e : Event) (lc : Lc) : Lc :=
  if e.kind.isState = true ∧ hasKind e.kind lc.queue = true then { lc with queue := replaceKind e lc.queue }
  else if lc.queue.length < 24 then { lc with queue := lc.queue ++ [e] }
  else if e.kind = .vectors then lc
  else if hasKind .vectors lc.queue = true then { lc with queue := dropVectors lc.queue ++ [e] }
  else { lc with lost := true }

/-! ## Transmitter (10.3) -/

/-- The READY reply that became ready first; among those of one moment, the one whose request was accepted first (R183). -/
def earliestReply : List Slot → Option (Slot × Reply × Nat)
  | [] => none
  | sl :: rest =>
    match sl.phase with
    | .ready r t =>
      match earliestReply rest with
      | some (b, rb, tb) => if t ≤ tb then some (sl, r, t) else some (b, rb, tb)
      | none => some (sl, r, t)
    | _ => earliestReply rest

/-- The slot in `place` takes a new phase. -/
def setPhase (place : Nat) (ph : SlotPhase) (slots : List Slot) : List Slot :=
  slots.map fun sl => if sl.place = place then { sl with phase := ph } else sl

/-- Are events held back in this host state (R183). -/
def HostView.holdsEvents : HostView → Bool
  | .suspended | .off => true
  | _ => false

/-- The transmitter starts the reply of a slot. -/
def Lc.startReply (sl : Slot) (r : Reply) (lc : Lc) : Lc :=
  { lc with slots := setPhase sl.place .sending lc.slots, tx := some (.reply sl.kind sl.tag r) }

/-- The transmitter starts the item of the refusal slot. -/
def Lc.startRefusal (rf : Refused) (lc : Lc) : Lc :=
  { lc with refusal := some { rf with sending := true }, tx := some (.refusal rf.item) }

/-- The transmitter starts the oldest event: its entry leaves the queue, and the header carries the lost mark, which is
cleared (R183, R190). -/
def Lc.startEvent (host : HostView) (lc : Lc) : Lc :=
  match lc.queue with
  | [] => lc
  | e :: q => if HostView.holdsEvents host = true then lc else { lc with queue := q, lost := false, tx := some (.event lc.lost e) }

/-- The item of the refusal slot that waits to be sent. -/
def Lc.readyRefusal (lc : Lc) : Option Refused := lc.refusal.filter fun rf => !rf.sending

/-- The idle transmitter chooses the next frame (R183). -/
def Lc.choose (host : HostView) (lc : Lc) : Lc :=
  match earliestReply lc.slots, lc.readyRefusal with
  | some (sl, r, t), some rf => if t ≤ rf.since then lc.startReply sl r else lc.startRefusal rf
  | some (sl, r, _), none => lc.startReply sl r
  | none, some rf => lc.startRefusal rf
  | none, none => lc.startEvent host

/-- When the transmitter is idle and something is ready, it starts a frame; it interrupts none (R183). -/
def kick (s : State) : State :=
  match s.lc.tx with
  | some _ => s
  | none => { s with lc := s.lc.choose s.spu.host }

/-- A block offers an event to LC: the class is judged at the offer (R187). -/
def offer (e : Event) (s : State) : State :=
  if bitHas s.lc.grant e.kind.cls.idx = true then kick { s with lc := s.lc.enqueue e } else s

/-! ## Answers and refusals (R181, R182) -/

/-- The replies of the slots in `places` become ready, all at the same moment. -/
def answerAll (places : List Nat) (r : Reply) (s : State) : State :=
  kick { s with
    lc := { s.lc with
      slots := s.lc.slots.map fun sl => if sl.place ∈ places then { sl with phase := .ready r s.lc.moments } else sl
      moments := s.lc.moments + 1 } }

/-- The owner answers the request in `place`: its slot becomes READY (R181). -/
def answer (place : Nat) (r : Reply) (s : State) : State := answerAll [place] r s

/-- A reply that carries its result code alone (R184). -/
def Reply.code (r : Result) : Reply := { result := r, content := .none }

/-- OK with content. -/
def Reply.ok (c : Content) : Reply := { result := .ok, content := c }

/-- OK, or CLAMPED when something was clamped, with content (R184). -/
def Reply.clamped (clamped : Bool) (c : Content) : Reply := { result := if clamped = true then .clamped else .ok, content := c }

/-- An item is placed in the refusal slot, or dropped when the slot is occupied (R182). -/
def refuse (item : RefusalItem) (s : State) : State :=
  match s.lc.refusal with
  | some _ => s
  | none =>
    kick { s with
      lc := { s.lc with
        refusal := some { item := item, since := s.lc.moments, sending := false }
        moments := s.lc.moments + 1 } }

/-! ## Lines to the base and the pen -/

/-- BM sends a record on BTX (4.2). -/
def sendBase (r : BaseTx) (s : State) : State := { s with btx := s.btx ++ [r] }

/-- PDC sends STATUS_QUERY on PLINE (R123). -/
def sendQuery (s : State) : State := { s with queries := s.queries + 1 }

end Sys2Proof.Machine
end

