-- ==== Sys2Proof/Machine/Flags.lean ====
section
/-! DEFINITION. The condition flags and the history ring of CM: rise and fall reports (R165, R166, R170). -/

namespace Sys2Proof.Machine

/-- The ring after an append: at most 16 records, the oldest going first (R170). -/
def ringAppend (ring : List HistoryRecord) (r : HistoryRecord) : List HistoryRecord :=
  if ring.length < 16 then ring ++ [r] else ring.tail ++ [r]

/-- The history record of a rise taken now (R170). -/
def historyNow (c : Cond) (detail : Nat) (s : State) : HistoryRecord :=
  { seq := s.cm.next, cond := c, detail := detail, uptime := s.cm.uptime, posture := s.pe.posture.value,
    host := s.spu.host, earlier := false }

/-- CM's records after a rise: live flag (state kinds), latched flag, ring and sequence counter (R165, R170). -/
def Cm.risen (c : Cond) (r : HistoryRecord) (cm : Cm) : Cm :=
  { cm with
    live := if c.isState = true then bitAdd cm.live c.idx else cm.live
    latched := bitAdd cm.latched c.idx
    ring := ringAppend cm.ring r
    next := cm.next + 1 }

/-- The live flag a CONDITION event carries: absent for an occurrence condition (R173). -/
def liveShown (c : Cond) : Option Bool := if c.isState = true then some true else none

/-- CM takes a rise report (R165, R173). A report of a state condition that is already live is not a rise. -/
def rise (c : Cond) (detail : Nat) (s : State) : State :=
  if c.isState = true ∧ bitHas s.cm.live c.idx = true then s
  else
    offer (.condition (historyNow c detail s) (liveShown c))
      { s with cm := s.cm.risen c (historyNow c detail s) }

/-- CM takes a fall report (R166). -/
def fall (c : Cond) (s : State) : State := { s with cm := { s.cm with live := bitDrop s.cm.live c.idx } }

/-- The latched flag of a condition (R169). -/
def latchedFlag (c : Cond) (s : State) : Bool := bitHas s.cm.latched c.idx

end Sys2Proof.Machine
end

