-- ==== Sys2Proof/Machine/Operands.lean ====
section
/-! DEFINITION. The operand forms: the codes, owners and payload lengths of the request kinds (10.7, 10.8), the fields
of each request payload, and the byte layouts of frames (R193). -/

namespace Sys2Proof.Machine

/-! ## Request kinds (R193, 10.7) -/

/-- KIND byte of a request: 0x01 to 0x1D in catalogue order (R193). -/
def kindCode : ReqKind → Nat
  | .identify => 0x01
  | .subscribe => 0x02
  | .unsubscribe => 0x03
  | .resetPart => 0x04
  | .getPosture => 0x05
  | .getVectors => 0x06
  | .setRotationLock => 0x07
  | .setTuning => 0x08
  | .calibrateHinge => 0x09
  | .listBases => 0x0A
  | .forgetBase => 0x0B
  | .setBaseOffset => 0x0C
  | .acceptBase => 0x0D
  | .setBasePolicy => 0x0E
  | .requestDetach => 0x0F
  | .detachConsent => 0x10
  | .setDetachPolicy => 0x11
  | .getSupply => 0x12
  | .getPen => 0x13
  | .setPenCharging => 0x14
  | .hostState => 0x15
  | .getSleep => 0x16
  | .setSleepPolicy => 0x17
  | .setWakeCauses => 0x18
  | .getConditions => 0x19
  | .getHistory => 0x1A
  | .clearConditions => 0x1B
  | .saveSettings => 0x1C
  | .restoreDefaults => 0x1D

/-- The request kind of a KIND byte; every other KIND is unknown (R193). -/
def kindOf : Nat → Option ReqKind
  | 0x01 => some .identify
  | 0x02 => some .subscribe
  | 0x03 => some .unsubscribe
  | 0x04 => some .resetPart
  | 0x05 => some .getPosture
  | 0x06 => some .getVectors
  | 0x07 => some .setRotationLock
  | 0x08 => some .setTuning
  | 0x09 => some .calibrateHinge
  | 0x0A => some .listBases
  | 0x0B => some .forgetBase
  | 0x0C => some .setBaseOffset
  | 0x0D => some .acceptBase
  | 0x0E => some .setBasePolicy
  | 0x0F => some .requestDetach
  | 0x10 => some .detachConsent
  | 0x11 => some .setDetachPolicy
  | 0x12 => some .getSupply
  | 0x13 => some .getPen
  | 0x14 => some .setPenCharging
  | 0x15 => some .hostState
  | 0x16 => some .getSleep
  | 0x17 => some .setSleepPolicy
  | 0x18 => some .setWakeCauses
  | 0x19 => some .getConditions
  | 0x1A => some .getHistory
  | 0x1B => some .clearConditions
  | 0x1C => some .saveSettings
  | 0x1D => some .restoreDefaults
  | _ => none

/-- The one payload length of a request kind (10.8). -/
def payloadLength : ReqKind → Nat
  | .subscribe => 3
  | .unsubscribe => 1
  | .setRotationLock => 1
  | .setTuning => 18
  | .calibrateHinge => 2
  | .forgetBase => 6
  | .setBaseOffset => 9
  | .setBasePolicy => 1
  | .detachConsent => 1
  | .setDetachPolicy => 6
  | .setPenCharging => 6
  | .hostState => 1
  | .setSleepPolicy => 13
  | .setWakeCauses => 12
  | .getHistory => 1
  | .clearConditions => 3
  | _ => 0

/-- The block that owns a request kind (10.7). -/
def kindOwner : ReqKind → Owner
  | .identify | .subscribe | .unsubscribe | .resetPart => .lc
  | .getPosture | .setRotationLock | .setTuning => .pe
  | .getVectors => .sfe
  | .calibrateHinge | .listBases | .forgetBase | .setBaseOffset | .acceptBase | .setBasePolicy | .requestDetach
  | .detachConsent | .setDetachPolicy => .bm
  | .getSupply => .sm
  | .getPen | .setPenCharging => .pdc
  | .hostState | .getSleep | .setSleepPolicy | .setWakeCauses => .spu
  | .getConditions | .getHistory | .clearConditions => .cm
  | .saveSettings | .restoreDefaults => .ss

/-! ## Payload fields (10.8): numbers least significant byte first (R193) -/

/-- The byte at offset `i`. -/
def u8 (p : List Byte) (i : Nat) : Nat := (p.getD i 0).toNat

/-- The unsigned two-byte number at offset `i`. -/
def u16 (p : List Byte) (i : Nat) : Nat := u8 p i + 256 * u8 p (i + 1)

/-- The signed two-byte number at offset `i`. -/
def s16 (p : List Byte) (i : Nat) : Int := (BitVec.ofNat 16 (u16 p i)).toInt

/-- The 48-bit serial at offset `i`. -/
def u48 (p : List Byte) (i : Nat) : Serial :=
  BitVec.ofNat 48 (u16 p i + 65536 * u16 p (i + 2) + 4294967296 * u16 p (i + 4))

/-- SET_TUNING payload. -/
def tuningOfPayload (p : List Byte) : Tuning :=
  { depth := u8 p 0, hall := u8 p 1, divider := u8 p 2, hingeFloor := u16 p 3, tiltFloor := u16 p 5,
    postureAcquire := u8 p 7, postureChange := u8 p 8, orientAcquire := u8 p 9, orientChange := u8 p 10,
    postureMargin := u16 p 11, standTentMargin := u16 p 13, orientMargin := u16 p 15, staleLimit := u8 p 17 }

/-- SET_DETACH_POLICY payload. -/
def detachOfPayload (p : List Byte) : RawDetach :=
  { standing := u8 p 0, timeoutAction := u8 p 1, consentTimeout := u16 p 2, window := u16 p 4 }

/-- SET_PEN_CHARGING payload. -/
def penOfPayload (p : List Byte) : RawPen :=
  { enable := u8 p 0, maxCurrent := u8 p 1, recharge := u8 p 2, termination := u8 p 3, safety := u16 p 4 }

/-- SET_SLEEP_POLICY payload. -/
def sleepOfPayload (p : List Byte) : RawSleep :=
  { lid := u8 p 0, faceDown := u8 p 1, supply := u8 p 2, lidGrace := u16 p 3, faceDownTime := u16 p 5,
    lidConfirm := u16 p 7, wakeTimeout := u16 p 9, attemptLimit := u8 p 11, track := u8 p 12 }

/-- SET_WAKE_CAUSES payload. -/
def wakeOfPayload (p : List Byte) : List RawWakeEntry :=
  (List.range 6).map fun k => { enable := u8 p (2 * k), mask := u8 p (2 * k + 1) }

/-! ## Byte layouts of what the part sends (R193) -/

/-- Result codes (10.8). -/
def resultCode : Result → Nat
  | .ok => 0
  | .clamped => 1
  | .badLength => 2
  | .unknownKind => 3
  | .badValue => 4
  | .wrongState => 5
  | .notGranted => 6
  | .busy => 7
  | .version => 8

/-- The CHECK byte of a frame: 0xFF minus the sum of LEN and the body bytes modulo 256 (10.1). -/
def checkByte (sum : Nat) : Byte := BitVec.ofNat 8 (255 - sum % 256)

/-- The sum of the bytes of a list. -/
def byteSum (bs : List Byte) : Nat := (bs.map BitVec.toNat).sum

/-- A whole frame: SYNC, LEN, KIND, TAG, payload, CHECK (10.8). -/
def frameBytes (kind : Nat) (tag : Byte) (payload : List Byte) : List Byte :=
  let body := BitVec.ofNat 8 kind :: tag :: payload
  0xC3#8 :: BitVec.ofNat 8 body.length :: body ++ [checkByte (body.length + byteSum body)]

/-- A flag as a number. -/
def bit (b : Bool) (weight : Nat) : Nat := if b = true then weight else 0

/-- The 16 bytes of the posture record (10.8). -/
def postureBytes (r : PostureRecord) : List Byte :=
  leBytes 1 r.posture.code ++ leBytes 1 r.lock.code ++
  leBytes 1 (bit r.fresh 1 + bit r.theta.isSome 2 + bit r.rotationLock 4 + bit r.serial.isSome 8) ++
  leBytes 2 (r.theta.getD 0) ++ leBytes 1 r.reported.code ++ leBytes 1 r.computed.code ++
  leBytes 1 r.abstain.code ++ leBytes 2 r.sequence.toNat ++ leBytes 6 ((r.serial.map BitVec.toNat).getD 0)

/-- The bytes of a reply's content after its result: given for the posture record, the SUBSCRIBE reply and the set of kept
codes of CLEAR_CONDITIONS (R193), a free value elsewhere. DEDUCED (notes/assumptions/2.md): the set of kept codes stands
first, as R167 lists it first. -/
def contentLayout : Content → List Byte
  | .none => []
  | .posture r => postureBytes r
  | .subscription grant => [2#8, 3#8, grant]
  | .cleared kept latched => leBytes 2 kept.toNat ++ Config.contentBytes (.cleared kept latched)
  | c => Config.contentBytes c

/-- The bytes of an event's content after its header. -/
def eventLayout : Event → List Byte
  | .postureChanged r => postureBytes r
  | .orientationChanged r => postureBytes r
  | .adviceWithdrawn => []
  | e => Config.eventBytes e

/-- The bytes a frame puts on TXD (R182, R184, R190, R193). -/
def wire : TxFrame → List Byte
  | .reply kind tag r => frameBytes (kindCode kind + 0x80) tag (leBytes 1 (resultCode r.result) ++ contentLayout r.content)
  | .refusal (.busy kind tag) => frameBytes (kindCode kind + 0x80) tag (leBytes 1 (resultCode .busy))
  | .refusal (.badLength kind tag) => frameBytes (kindCode kind + 0x80) tag (leBytes 1 (resultCode .badLength))
  | .refusal (.unknownKind kind tag) => frameBytes 0xFE tag (leBytes 1 (resultCode .unknownKind) ++ [kind])
  | .refusal .frameReject => frameBytes 0xFF 0 []
  | .event lost e => frameBytes e.kind.code 0 (leBytes 1 (bit lost 1) ++ eventLayout e)

end Sys2Proof.Machine
end

