-- ==== Sys2Proof/Machine/Advice.lean ====
section
/-! DEFINITION. SPU's posture view and sleep advice (8.2): the three triggers, their timers and the advised-reason set
(R147 to R151). -/

namespace Sys2Proof.Machine

/-- The trigger record of a trigger. -/
def triggerRec (t : Trigger) (u : Spu) : TriggerRec :=
  match t with
  | .lid => u.lid
  | .faceDown => u.faceDown
  | .supply => u.supply

/-- The trigger record replaced. -/
def setTrigger (t : Trigger) (r : TriggerRec) (u : Spu) : Spu :=
  match t with
  | .lid => { u with lid := r }
  | .faceDown => { u with faceDown := r }
  | .supply => { u with supply := r }

/-- The enable of a trigger. -/
def triggerEnable (t : Trigger) (p : SleepPolicy) : Enable :=
  match t with
  | .lid => p.lid
  | .faceDown => p.faceDown
  | .supply => p.supply

/-- The time a trigger's condition must hold; SUPPLY matures at once (8.2). -/
def triggerTime (t : Trigger) (p : SleepPolicy) : Nat :=
  match t with
  | .lid => p.lidGrace
  | .faceDown => p.faceDownTime
  | .supply => 0

/-- The FACE_DOWN condition on the posture view (R148). -/
def liesFaceDown (v : PostureView) : Bool :=
  (decide (v.posture = .tablet ∧ v.lock = .locked) || decide (v.posture = .detached ∧ v.lock = .held)) &&
  decide (v.orientLock = .locked) && v.fresh && decide (v.reported = .faceDown)

/-- Does the condition of a trigger hold now; a disabled trigger's does not (R147). -/
def triggerHolds (t : Trigger) (s : State) : Bool :=
  decide (triggerEnable t s.settings.sleep = .enabled) &&
  match t with
  | .lid => decide (s.spu.view.posture = .closed)
  | .faceDown => liesFaceDown s.spu.view
  | .supply => decide (s.sm.supply = .critical)

/-- A trigger matures: while the host is awake its reason joins the advised set and SLEEP_ADVICE is offered (R149). -/
def mature (t : Trigger) (s : State) : State :=
  let u := setTrigger t { triggerRec t s.spu with timer := none, matured := true } s.spu
  if u.state = .awake ∨ u.state = .advised then
    offer (.sleepAdvice (bitAdd 0 t.idx) (bitAdd u.advised t.idx))
      { s with spu := { u with advised := bitAdd u.advised t.idx, state := .advised } }
  else { s with spu := u }

/-- A trigger's condition begins to hold: its timer starts, or it matures at once (R147). -/
def triggerBegins (t : Trigger) (s : State) : State :=
  let time := triggerTime t s.settings.sleep
  if time = 0 then mature t { s with spu := setTrigger t { triggerRec t s.spu with holds := true } s.spu }
  else { s with spu := setTrigger t { holds := true, timer := some (s.now + time), matured := false } s.spu }

/-- A trigger's condition stops holding: timer cancelled, matured mark cleared, and the reason leaves the advised set
(R147, R150). -/
def triggerEnds (t : Trigger) (s : State) : State :=
  let u := setTrigger t TriggerRec.idle s.spu
  if bitHas u.advised t.idx = true then
    let rest := bitDrop u.advised t.idx
    if rest = 0 then
      offer .adviceWithdrawn
        { s with spu := { u with advised := rest, state := if u.state = .advised then .awake else u.state } }
    else { s with spu := { u with advised := rest } }
  else { s with spu := u }

/-- The condition of a trigger is evaluated; a report that leaves it as it was changes nothing (R147). -/
def evalTrigger (t : Trigger) (s : State) : State :=
  if triggerHolds t s = (triggerRec t s.spu).holds then s
  else if triggerHolds t s = true then triggerBegins t s
  else triggerEnds t s

/-- The posture view of PE's record. -/
def viewOf (p : Pe) : PostureView :=
  { posture := p.posture.value, lock := p.posture.state, fresh := p.fresh, reported := p.reported,
    orientLock := p.orient.state }

/-- Does the condition of a trigger differ from what its record holds. -/
def triggerTurns (t : Trigger) (s : State) : Bool := decide (triggerHolds t s ≠ (triggerRec t s.spu).holds)

/-- PE's report reaches SPU, which records it and re-evaluates the LID and FACE_DOWN conditions at once (R147). The manual
does not say which first, and it shows only when both turn. -/
def spuView (s : State) : State :=
  let s := { s with spu := { s.spu with view := viewOf s.pe } }
  if (triggerTurns .lid s && triggerTurns .faceDown s) = true then
    eitherOrder (evalTrigger .lid) (evalTrigger .faceDown) s
  else evalTrigger .faceDown (evalTrigger .lid s)

end Sys2Proof.Machine
end

