-- ==== Sys2Proof/Machine/Angle.lean ====
section
/-! DEFINITION. The arithmetic of sensing and classification: plausibility and the filter step (R7, R8), ANG (R22 to
R24), the hinge and rotation computations (R25 to R31), the two classifiers (R39 to R42, R50, R51) and the lock
machines (R45, R46). All of it is exact integer arithmetic; `/` and `%` on `Int` with a positive divisor are the floor
and the mod of the conventions. -/

namespace Sys2Proof.Machine

/-! ## Samples (1.3) -/

/-- The L1 norm |x| + |y| + |z| (R7). -/
def l1 (v : Vec3) : Nat := v.x.natAbs + v.y.natAbs + v.z.natAbs

/-- R7: plausible when the norm lies in 3584..7168. -/
def plausible (v : Vec3) : Bool := decide (3584 ≤ l1 v) && decide (l1 v ≤ 7168)

/-- One axis step of depth `k`: f + floor((s − f) / 2^k) (R8). -/
def axisStep (k : Nat) (f s : Int) : Int := f + (s - f) / 2 ^ k

/-- A plausible sample reaches a filter: an EMPTY one is loaded, a LOADED one takes a step on each axis (R8). -/
def feed (k : Nat) (filter : Option Vec3) (s : Vec3) : Vec3 :=
  match filter with
  | none => s
  | some f => { x := axisStep k f.x s.x, y := axisStep k f.y s.y, z := axisStep k f.z s.z }

/-! ## ANG (2.1) -/

/-- Stage 2: t = floor(lo × 4096 / hi) (R22). -/
def angRatio (a b : Nat) : Nat := min a b * 4096 / max a b

/-- Stage 3: the octant estimate of a ratio (R23). -/
def angEstimate (t : Nat) : Nat := (t * (2949120 + 250 * (4096 - t)) + 8388608) / 16777216

/-- Stage 4: the estimate reflected into its octant (R24). -/
def angBase (a b : Nat) : Nat :=
  if b ≤ a then angEstimate (angRatio a b) else 1440 - angEstimate (angRatio a b)

/-- ANG(p, q): the direction, in sixteenths, of the vector with `p` along the reference axis and `q` along the axis 90°
ahead (R22 to R24). -/
def ang (p q : Int) : Nat :=
  let base := angBase p.natAbs q.natAbs
  if 0 ≤ p then
    if 0 ≤ q then base else if base = 0 then 0 else 5760 - base
  else if 0 ≤ q then 2880 - base else 2880 + base

/-! ## Hinge and rotation computations (2.2, 2.3) -/

/-- The larger magnitude of two components. -/
def maxAbs (p q : Int) : Nat := max p.natAbs q.natAbs

/-- The hinge floor test on both halves (R26). -/
def hingeFloorMet (floor : Nat) (d b : Vec3) : Bool := decide (floor ≤ maxAbs d.y d.z) && decide (floor ≤ maxAbs b.y b.z)

/-- θ = (2880 − φD + φB + C) mod 5760 (R27, R28). -/
def hingeAngle (d b : Vec3) (offset : Int) : Nat :=
  ((2880 - (ang d.z d.y : Int) + (ang b.z b.y : Int) + offset) % 5760).toNat

/-- The result of the rotation computation (R30, R31). -/
inductive Tilt where
  | face (o : Orientation)
  | angle (psi : Nat)
  deriving DecidableEq, Repr

/-- The tilt floor in force: T, or T + 256 while O is a face orientation (R30). -/
def tiltFloorInForce (floor : Nat) (o : Orientation) : Nat :=
  if o = .faceUp ∨ o = .faceDown then floor + 256 else floor

/-- The rotation computation on the filtered display vector (R30, R31). -/
def tilt (floor : Nat) (o : Orientation) (d : Vec3) : Tilt :=
  if maxAbs d.x d.y < tiltFloorInForce floor o then .face (if 0 ≤ d.z then .faceUp else .faceDown)
  else .angle (ang d.y d.x)

/-! ## Classifiers (3.2, 3.5) -/

/-- A sample notice as SFE hands it to PE (R15). -/
structure Notice where
  raw : Vec3
  plausible : Bool
  display : Option Vec3
  status : BaseStatus
  base : Option Vec3
  lid : Level
  fold : Level
  deriving DecidableEq, Repr

/-- What a classifier makes of a notice: a candidate, or an abstention with its reason. -/
inductive Verdict (α : Type) where
  | candidate (c : α)
  | abstain (r : Abstain)
  deriving DecidableEq, Repr

/-- E1', the upper edge of the fold zone (R40). -/
def edge1 (mp : Nat) : Posture → Int
  | .laptop => 320 - mp
  | .tablet => 320 + mp
  | _ => 320

/-- E2', between LAPTOP and STAND or TENT (R40). -/
def edge2 (mp : Nat) : Posture → Int
  | .laptop => 3200 + mp
  | .stand | .tent => 3200 - mp
  | _ => 3200

/-- E3', the lower edge of TABLET (R40). -/
def edge3 (mp : Nat) : Posture → Int
  | .stand | .tent => 5280 + mp
  | .tablet => 5280 - mp
  | _ => 5280

/-- STAND or TENT by the filtered base components (R42). -/
def standOrTent (mt : Nat) (p : Posture) (b : Vec3) : Posture :=
  if p = .stand then (if b.z.natAbs + mt < b.y.natAbs then .tent else .stand)
  else if p = .tent then (if b.y.natAbs + mt < b.z.natAbs then .stand else .tent)
  else if b.y.natAbs ≤ b.z.natAbs then .stand else .tent

/-- The candidate from θ (R41). -/
def fromTheta (t : Tuning) (p : Posture) (theta : Nat) (b : Vec3) : Verdict Posture :=
  if edge3 t.postureMargin p ≤ (theta : Int) then .candidate .tablet
  else if (theta : Int) < edge1 t.postureMargin p then
    if p = .tablet then .candidate .tablet else .abstain .foldZone
  else if (theta : Int) < edge2 t.postureMargin p then .candidate .laptop
  else .candidate (standOrTent t.standTentMargin p b)

/-- The hinge stage of the posture classifier: its verdict, and θ when the hinge computation is made (R25 to R28, R41).
A FRESH base status always comes with both filters LOADED (R11); a notice without them counts as short of the floor. -/
def hingeStage (t : Tuning) (p : Posture) (offset : Int) (n : Notice) : Verdict Posture × Option Nat :=
  match n.display, n.base with
  | some d, some b =>
    if hingeFloorMet t.hingeFloor d b = true then (fromTheta t p (hingeAngle d b offset) b, some (hingeAngle d b offset))
    else (.abstain .hingeVertical, none)
  | _, _ => (.abstain .hingeVertical, none)

/-- The posture classifier: the checks of R39 in order. -/
def classifyPosture (t : Tuning) (p : Posture) (offset : Int) (n : Notice) : Verdict Posture × Option Nat :=
  if n.plausible = false then (.abstain .motionD, none)
  else if n.fold = .asserted then (.candidate .tablet, none)
  else
    match n.status with
    | .none | .paused => (.abstain .basePaused, none)
    | .stale => (.abstain .baseStale, none)
    | .moving => (.abstain .motionB, none)
    | .fresh => hingeStage t p offset n

/-- The centre of an edge orientation; none for the others (3.5). -/
def centre : Orientation → Option Nat
  | .landscape => some 0
  | .portrait => some 1440
  | .landscapeFlipped => some 2880
  | .portraitFlipped => some 4320
  | _ => none

/-- The circular distance between two angles: the smaller of the difference and 5760 less it (R51). -/
def circular (a b : Nat) : Nat := min ((a : Int) - b).natAbs (5760 - ((a : Int) - b).natAbs)

/-- The edge orientation of the sector of ψ (R50). -/
def sector (psi : Nat) : Orientation :=
  match (psi + 720) / 1440 % 4 with
  | 0 => .landscape
  | 1 => .portrait
  | 2 => .landscapeFlipped
  | _ => .portraitFlipped

/-- The candidate from ψ: the hold test (R51), else the sector (R50). -/
def fromPsi (mo : Nat) (o : Orientation) (psi : Nat) : Orientation :=
  match centre o with
  | some c => if circular psi c ≤ 720 + mo then o else sector psi
  | none => sector psi

/-- The orientation classifier (R50). A plausible sample always leaves the display filter LOADED. -/
def classifyOrientation (t : Tuning) (o : Orientation) (n : Notice) : Verdict Orientation :=
  if n.plausible = false then .abstain .motionD
  else
    match n.display with
    | none => .abstain .motionD
    | some d =>
      match tilt t.tiltFloor o d with
      | .face f => .candidate f
      | .angle psi => .candidate (fromPsi t.orientMargin o psi)

/-! ## Lock machines (3.4) -/

/-- The count that completes a run in the machine's present state: acquire count while ACQUIRING, else change count. -/
def countInForce (acquire change : Nat) : LockState → Nat
  | .acquiring => acquire
  | _ => change

section
variable {α : Type} [DecidableEq α]

/-- The pending candidate and run count after a candidate is counted. -/
def runAfter (l : Lock α) (c : α) : Nat := if l.pending = some c then l.run + 1 else 1

/-- A candidate is counted against `need`: it extends or starts a run, and a run that reaches `need` sets the value and
locks the machine in the same step (R45, R46). -/
def count (need : Nat) (c : α) (l : Lock α) : Lock α :=
  if need ≤ runAfter l c then { state := .locked, value := c, pending := none, run := 0 }
  else { l with pending := some c, run := runAfter l c }

/-- A lock machine takes a candidate (R45 in ACQUIRING, R46 in LOCKED; none is taken in HELD or HALTED, R47). -/
def takeCandidate (acquire change : Nat) (c : α) (l : Lock α) : Lock α :=
  match l.state with
  | .acquiring => count acquire c l
  | .locked => if c = l.value then { l with pending := none, run := 0 } else count change c l
  | .held | .halted => l

/-- A lock machine takes a verdict; an abstention leaves it as it is (R43). -/
def takeVerdict (acquire change : Nat) (v : Verdict α) (l : Lock α) : Lock α :=
  match v with
  | .candidate c => takeCandidate acquire change c l
  | .abstain _ => l

/-- The pending candidate cleared and the run count 0. -/
def noRun (l : Lock α) : Lock α := { l with pending := none, run := 0 }

/-- A discontinuity: ACQUIRING or LOCKED starts over in ACQUIRING and keeps its value; HELD and HALTED stay (R48). -/
def startOver (l : Lock α) : Lock α :=
  match l.state with
  | .acquiring | .locked => { l with state := .acquiring, pending := none, run := 0 }
  | .held | .halted => l

/-- New counts: a run not less than the count now in force is cleared (R58). -/
def recount (acquire change : Nat) (l : Lock α) : Lock α :=
  if countInForce acquire change l.state ≤ l.run then noRun l else l

end

end Sys2Proof.Machine
end

