-- ==== Sys2Proof/Machine/Breaks.lean ====
section
/-! DEFINITION. Discontinuities (1.5) and what PE makes known of a change of its record (R52, R54, R55), the base stream
and SFE's view of it (R10, R71, R72). -/

namespace Sys2Proof.Machine

/-! ## PE's record and its events (3.6, 3.7) -/

/-- The posture record (R56). -/
def postureRecord (p : Pe) : PostureRecord :=
  { posture := p.posture.value, lock := p.posture.state, fresh := p.fresh, theta := p.theta, reported := p.reported,
    computed := p.orient.value, rotationLock := p.rotationLock, abstain := p.lastAbstain, sequence := p.sequence,
    serial := p.serial }

/-- The reported orientation: the first row of R52 that matches. -/
def reportedNow (p : Pe) : Orientation :=
  if p.posture.value = .laptop then .landscape
  else if p.posture.value = .closed then p.closedFreeze
  else if p.rotationLock = true then p.lockValue
  else p.orient.value

/-- PE's record settled after a change: the closed freeze value is taken when P becomes CLOSED, and the reported
orientation is computed again (R52). -/
def settled (old p : Pe) : Pe :=
  let q :=
    if p.posture.value = .closed ∧ old.posture.value ≠ .closed then { p with closedFreeze := old.reported } else p
  { q with reported := reportedNow q }

/-- An entry to or an exit from HALTED. -/
def haltFlip (a b : LockState) : Bool := decide (a = .halted) != decide (b = .halted)

/-- A change that emits POSTURE_CHANGED (R54). -/
def postureNews (old p : Pe) : Bool :=
  decide (old.posture.value ≠ p.posture.value) || haltFlip old.posture.state p.posture.state

/-- A change that emits ORIENTATION_CHANGED (R55). -/
def orientNews (old p : Pe) : Bool := decide (old.reported ≠ p.reported) || haltFlip old.orient.state p.orient.state

/-- PE offers POSTURE_CHANGED, and then ORIENTATION_CHANGED, as R54 and R55 say (R38 step 6). -/
def emitPosture (old p : Pe) (s : State) : State :=
  let s := if postureNews old p = true then offer (.postureChanged (postureRecord p)) s else s
  if orientNews old p = true then offer (.orientationChanged (postureRecord p)) s else s

/-- PE's record becomes `p`, settled; PE emits its events and reports to SPU. The manual does not order the two. -/
def peStep (report : State → State) (p : Pe) (s : State) : State :=
  let q := settled s.pe p
  if (postureNews s.pe q || orientNews s.pe q) = true then raceLc (emitPosture s.pe q) report { s with pe := q }
  else report { s with pe := q }

/-! ## Discontinuities (R13, R21, R48, R49) -/

/-- A discontinuity acts on PE (R48, R44, R21). -/
def Pe.broken (p : Pe) : Pe :=
  { p with
    posture := startOver p.posture, orient := startOver p.orient, fresh := false, abstainRun := 0,
    thetaCurrent := false }

/-- A HALTED machine leaves the halt for ACQUIRING (R49). -/
def endHalt {α : Type} (l : Lock α) : Lock α :=
  if l.state = .halted then { l with state := .acquiring, pending := none, run := 0 } else l

/-- The recovery discontinuity acts on PE (R49). -/
def Pe.recovered (p : Pe) : Pe :=
  let b := p.broken
  { b with posture := endHalt b.posture, orient := endHalt b.orient, halt := false }

/-- The display filter becomes EMPTY (R13). -/
def Sfe.emptyDisplay (f : Sfe) : Sfe := { f with dFilter := none }

/-- The base filter becomes EMPTY; its last arrival time, moving mark and stale run count go, the late flag stays (R13). -/
def Sfe.emptyBase (f : Sfe) : Sfe := { f with bFilter := none, lastArrival := none, moving := false, staleRun := 0 }

/-- SFE passes a discontinuity to PE. -/
def peDiscontinuity (s : State) : State := peStep spuView s.pe.broken s

/-- A discontinuity of the base filter (R13, R14). -/
def breakBase (s : State) : State := peDiscontinuity { s with sfe := s.sfe.emptyBase }

/-- A discontinuity of both filters (R13, R14). -/
def breakBoth (s : State) : State := peDiscontinuity { s with sfe := s.sfe.emptyBase.emptyDisplay }

/-- The discontinuity of the display filter that marks recovery from DSENS_FAULT (R5, R49). -/
def breakRecovery (s : State) : State := peStep spuView s.pe.recovered { s with sfe := s.sfe.emptyDisplay }

/-! ## The base stream (4.4) -/

/-- The four BM states with an active base (4.1). -/
def BmState.hasBase : BmState → Bool
  | .attached | .detachAsked | .releasing | .closing => true
  | _ => false

/-- SFE's base stream view of BM's state and stream state (R10). -/
def baseViewOf (b : Bm) : BaseView :=
  if BmState.hasBase b.state = true then (if b.stream = .running then .running else .paused) else .none

/-- BM's report reaches SFE; a view that becomes NONE clears the late flag (R10, R12, R62). -/
def sfeView (s : State) : State :=
  let v := baseViewOf s.bm
  if v = .none ∧ s.sfe.late = true then
    fall .baseSamplesLate { s with sfe := { s.sfe with view := v, late := false } }
  else { s with sfe := { s.sfe with view := v } }

/-- The period BM sends for a part mode (R69, R71). -/
def basePeriod : PartMode → Nat
  | .active => 20
  | .watch => 160
  | .halt => 160

/-- The stream is wanted (R71). -/
def streamWanted (s : State) : Bool :=
  (decide (s.bm.state = .attached) || decide (s.bm.state = .detachAsked)) && decide (s.spu.mode ≠ .halt)

/-- BM resumes the stream (R71). -/
def resumeStream (s : State) : State :=
  breakBase (sfeView (sendBase (.setPeriod (basePeriod s.spu.mode))
    { s with bm := { s.bm with stream := .running, quiesce := none } }))

/-- BM quiesces the stream (R71). -/
def quiesceStream (s : State) : State :=
  sfeView (sendBase .quiesce { s with bm := { s.bm with stream := .pausing, quiesce := some (s.now + 50) } })

/-- BM compares the stream state with what is wanted (R71). -/
def compareStream (s : State) : State :=
  if streamWanted s = true then (if s.bm.stream = .running then s else resumeStream s)
  else if BmState.hasBase s.bm.state = true ∧ s.bm.stream = .running then quiesceStream s
  else s

end Sys2Proof.Machine
end

