-- ==== Sys2Proof/Machine/Modes.lean ====
section
/-! DEFINITION. The part modes (8.5): SPU's choice (R159) and what SFE, SM, BM and PE do at a change (R6, R57, R71, R72,
R102, R160). -/

namespace Sys2Proof.Machine

/-- The display read period of a mode while not in fault (1.2). -/
def readPeriod : PartMode → Nat
  | .active => 20
  | .watch => 160
  | .halt => 0

/-- The display period timer restarts now for the period in force (R2): none in HALT, 1000 ms while DSENS_FAULT is live. -/
def restartPeriod (s : State) : State :=
  { s with
    sfe := { s.sfe with
      period :=
        if s.spu.mode = .halt then none
        else some (s.now + if s.sfe.fault = true then 1000 else readPeriod s.spu.mode) } }

/-- SFE takes a change of part mode (R6). -/
def sfeMode (old : PartMode) (s : State) : State :=
  if s.spu.mode = .halt then
    restartPeriod
      { s with sfe := { s.sfe with discard := s.sfe.discard || decide (s.sfe.reader = .reading), reader := .stopped } }
  else if old = .halt then
    let s := breakBoth s
    restartPeriod { s with sfe := { s.sfe with reader := if s.sfe.discard = true then .reading else .idle } }
  else restartPeriod s

/-- The scan period of a mode (6.1). -/
def scanPeriod : PartMode → Nat
  | .active => 100
  | .watch => 1000
  | .halt => 8000

/-- SM takes a change of part mode (R102). -/
def smMode (s : State) : State :=
  { s with
    sm := { s.sm with periodMs := scanPeriod s.spu.mode, period := some (s.now + scanPeriod s.spu.mode) } }

/-- BM takes a change of part mode: SET_PERIOD between ACTIVE and WATCH while the stream is RUNNING (R72), otherwise the
comparison of R71. -/
def bmMode (old : PartMode) (s : State) : State :=
  if BmState.hasBase s.bm.state = true ∧ s.bm.stream = .running ∧ old ≠ .halt ∧ s.spu.mode ≠ .halt then
    sendBase (.setPeriod (basePeriod s.spu.mode)) s
  else compareStream s

/-- PE takes a change of part mode: on entry to HALT the fresh flag and the abstain run are cleared (R57). -/
def peMode (s : State) : State :=
  if s.spu.mode = .halt then peStep spuView { s.pe with fresh := false, abstainRun := 0 } s else s

/-- SPU hands a new part mode to SFE, SM, BM and PE (R160). Their acts at the change touch different records, or repeat
a discontinuity, and send no message, so their order shows in nothing. -/
def changeMode (m : PartMode) (s : State) : State :=
  peMode (bmMode s.spu.mode (smMode (sfeMode s.spu.mode { s with spu := { s.spu with mode := m } })))

/-- PDC in none of EMPTY, FULL and FAULT (R159). -/
def PdcState.keepsWatch : PdcState → Bool
  | .empty | .full | .fault => false
  | _ => true

/-- The part mode that R159 gives. -/
def modeWanted (s : State) : PartMode :=
  if s.spu.host = .running ∨ s.spu.host = .suspending ∨ s.spu.state = .waking then .active
  else if PdcState.keepsWatch s.pdc.state = true
      ∨ s.bm.state = .detachAsked ∨ s.bm.state = .releasing ∨ s.bm.state = .closing
      ∨ (s.spu.state = .asleep ∧ s.settings.wake.postureChanged.enable = .enabled)
      ∨ s.settings.sleep.track = true then .watch
  else .halt

/-- SPU chooses the part mode again; a choice that gives the mode in force changes nothing (R159). -/
def chooseMode (s : State) : State := if modeWanted s = s.spu.mode then s else changeMode (modeWanted s) s

end Sys2Proof.Machine
end

