-- ==== Sys2Proof/Machine/Wake.lean ====
section
/-! DEFINITION. Wake causes and wake episodes (8.3, 8.4), and the lid-confirm timer (R152 to R157). -/

namespace Sys2Proof.Machine

/-- SPU's record at the start of a wake episode with the causes in the cause set: attempt 1, HWAKE asserted (R156). -/
def Spu.episode (now : Nat) (p : SleepPolicy) (causes : BitVec 6) (u : Spu) : Spu :=
  { u with
    state := .waking, causes := causes, limit := some p.attemptLimit, attempt := 1, hwake := true
    wake := some (now + p.wakeTimeout), gap := none }

/-- A wake episode starts (R156). -/
def startEpisode (causes : BitVec 6) (s : State) : State :=
  chooseMode { s with spu := s.spu.episode s.now s.settings.sleep causes }

/-- The test of a cause: enabled, and P in its posture mask (R152). -/
def causeCounts (c : WakeCause) (s : State) : Bool :=
  decide ((s.settings.wake.get c).enable = .enabled) && bitHas (s.settings.wake.get c).mask s.spu.view.posture.code

/-- A cause that counts is taken by SPU's state (R154). -/
def takeCause (c : WakeCause) (s : State) : State :=
  match s.spu.state with
  | .awake | .advised | .off => s
  | .suspending => { s with spu := { s.spu with pending := bitAdd s.spu.pending c.idx } }
  | .asleep => startEpisode (bitAdd 0 c.idx) s
  | .waking => { s with spu := { s.spu with causes := bitAdd s.spu.causes c.idx } }

/-- A cause occurs: SPU tests it, and a cause that fails the test has no effect (R152). -/
def cause (c : WakeCause) (s : State) : State := if causeCounts c s = true then takeCause c s else s

/-- PE's report of its record reaches SPU; a change of the value P is also a possible cause (8.3, R152). -/
def spuPosture (changed : Bool) (s : State) : State :=
  if changed = true then cause .postureChanged (spuView s) else spuView s

/-- A debounced change of LIDH reaches SPU: the lid-confirm timer (R153). -/
def spuLid (level : Level) (s : State) : State :=
  match level with
  | .asserted => { s with spu := { s.spu with lidConfirm := none } }
  | .released =>
    if (s.spu.state = .suspending ∨ s.spu.state = .asleep ∨ s.spu.state = .waking)
        ∧ s.settings.wake.lidOpened.enable = .enabled then
      if s.settings.sleep.lidConfirm = 0 then cause .lidOpened { s with spu := { s.spu with lidConfirm := none } }
      else { s with spu := { s.spu with lidConfirm := some (s.now + s.settings.sleep.lidConfirm) } }
    else s

/-- The lid-confirm timer has run out: LID_OPENED occurs (R153). -/
def lidConfirmed (s : State) : State := cause .lidOpened { s with spu := { s.spu with lidConfirm := none } }

/-- The wake timer of the present attempt has run out (R156, R157). -/
def wakeExpired (s : State) : State :=
  if s.spu.attempt < s.spu.limit.getD 0 then
    { s with spu := { s.spu with hwake := false, wake := none, gap := some (s.now + 100) } }
  else
    chooseMode
      (let s := rise .hostWakeFail s.spu.attempt { s with spu := { s.spu with hwake := false, wake := none } }
       { s with spu := { s.spu with attempt := 0, limit := none, causes := 0, state := .asleep } })

/-- The gap has run out: the next attempt (R156). -/
def nextAttempt (s : State) : State :=
  { s with
    spu := { s.spu with
      gap := none, attempt := s.spu.attempt + 1, hwake := true,
      wake := some (s.now + s.settings.sleep.wakeTimeout) } }

end Sys2Proof.Machine
end

