-- ==== Sys2Proof/Machine/Posture.lean ====
section
/-! DEFINITION. The Posture Engine (Chapter 3): forcing (R35, R36), sample notices (R38, R43, R44), the halt (R49), the
rotation lock (R53), the tuning record (R58) and the requests that PE answers (R53, R56, R58). -/

namespace Sys2Proof.Machine

/-- PE's record becomes `p`; SPU learns of it, and a change of P is a possible wake cause (R56, R152). -/
def peChange (p : Pe) (s : State) : State :=
  peStep (spuPosture (decide (s.pe.posture.value ≠ p.posture.value))) p s

/-! ## Forced postures (3.1) -/

/-- BM's states in which a hinge can be measured (R35). -/
def BmState.hinged : BmState → Bool
  | .attached | .detachAsked | .releasing => true
  | _ => false

/-- The forcing situation that R35 gives. -/
def situationNow (s : State) : Situation :=
  if s.sfe.lid.level = .asserted then .lid
  else if BmState.hinged s.bm.state = true then .none
  else .noBase

/-- A forced posture lock machine (R36, R47). -/
def forcedLock (p : Posture) : Lock Posture := { state := .held, value := p, pending := none, run := 0 }

/-- PE acts on a change of forcing situation (R36). The last abstain reason becomes NONE when the machine enters HELD
(R43). -/
def Pe.force (new : Situation) (p : Pe) : Pe :=
  if new = p.situation then p
  else
    match new with
    | .none =>
      { p with
        situation := .none
        posture := { state := if p.halt = true then .halted else .acquiring, value := .unknown, pending := none, run := 0 } }
    | .lid =>
      { p with
        situation := .lid, posture := forcedLock .closed
        lastAbstain := if p.situation = .none then .none else p.lastAbstain }
    | .noBase =>
      { p with
        situation := .noBase, posture := forcedLock .detached
        lastAbstain := if p.situation = .none then .none else p.lastAbstain }

/-- PE re-evaluates the forcing situation (R35, R36). -/
def peForcing (s : State) : State :=
  if situationNow s = s.pe.situation then s else peChange (s.pe.force (situationNow s)) s

/-! ## Sample notices (R38) -/

/-- The freshness record after a notice (R44). -/
def Pe.freshen (limit : Nat) (yields : Bool) (p : Pe) : Pe :=
  if yields = true then { p with fresh := true, abstainRun := 0 }
  else
    { p with
      abstainRun := min 250 (p.abstainRun + 1)
      fresh := if limit ≤ min 250 (p.abstainRun + 1) then false else p.fresh }

/-- The last abstain reason of a classified notice (R43). -/
def Verdict.reason {α : Type} : Verdict α → Abstain
  | .candidate _ => .none
  | .abstain r => r

/-- Does a classified notice yield (R44). -/
def Verdict.yields {α : Type} : Verdict α → Bool
  | .candidate _ => true
  | .abstain _ => false

/-- Steps 2 and 3 of R38 for a notice that is classified for posture. -/
def Pe.classified (t : Tuning) (v : Verdict Posture) (theta : Option Nat) (p : Pe) : Pe :=
  Pe.freshen t.staleLimit v.yields
    { p with
      posture := takeVerdict t.postureAcquire t.postureChange v p.posture
      theta := theta.or p.theta, thetaCurrent := theta.isSome, lastAbstain := v.reason }

/-- Steps 2 and 3 of R38 for a notice that finds the posture machine HELD. -/
def Pe.unclassified (t : Tuning) (n : Notice) (p : Pe) : Pe :=
  Pe.freshen t.staleLimit n.plausible
    { p with thetaCurrent := false, lastAbstain := if n.plausible = true then .none else .motionD }

/-- Steps 1 to 3 of R38. -/
def Pe.postureSide (t : Tuning) (n : Notice) (p : Pe) : Pe :=
  let q := { p with sequence := p.sequence + 1 }
  match q.posture.state with
  | .acquiring | .locked =>
    let r := classifyPosture t q.posture.value q.offset n
    q.classified t r.1 r.2
  | .held | .halted => q.unclassified t n

/-- Step 4 of R38. -/
def Pe.orientSide (t : Tuning) (n : Notice) (p : Pe) : Pe :=
  { p with
    orient := takeVerdict t.orientAcquire t.orientChange (classifyOrientation t p.orient.value n) p.orient }

/-- PE takes a sample notice (R38); steps 5 and 6 are those of every change of PE's record. -/
def sampleNotice (n : Notice) (s : State) : State :=
  peChange ((s.pe.postureSide s.settings.tuning n).orientSide s.settings.tuning n) s

/-! ## The display sensor fault (R49) -/

/-- PE sets the halt flag (R49). -/
def Pe.halted (p : Pe) : Pe :=
  { p with
    halt := true
    posture :=
      match p.posture.state with
      | .acquiring | .locked => { state := .halted, value := .unknown, pending := none, run := 0 }
      | .held | .halted => noRun p.posture
    orient := { state := .halted, value := .unknown, pending := none, run := 0 } }

/-- SFE tells PE that the posture job is halted (R4, R49). -/
def peHalt (s : State) : State := peChange s.pe.halted s

/-! ## What BM gives to PE (R29, R37) -/

/-- PE takes the active base's serial and calibration offset (R37). -/
def peBase (serial : Serial) (offset : Int) (s : State) : State :=
  { s with pe := { s.pe with serial := some serial, offset := offset } }

/-- PE takes the active base's new calibration offset (R29, R37). -/
def peOffset (offset : Int) (s : State) : State := { s with pe := { s.pe with offset := offset } }

/-- PE takes BM's report of a change of its state: the serial goes when there is no active base (R37), and the forcing
situation is re-evaluated (R35). -/
def peBm (s : State) : State :=
  peForcing { s with pe := { s.pe with serial := if BmState.hasBase s.bm.state = true then s.pe.serial else none } }

/-! ## Tuning (R19, R33, R58) -/

/-- PE takes new counts and a new stale limit (R58). -/
def Pe.retuned (t : Tuning) (p : Pe) : Pe :=
  { p with
    posture := recount t.postureAcquire t.postureChange p.posture
    orient := recount t.orientAcquire t.orientChange p.orient
    fresh := if t.staleLimit ≤ p.abstainRun then false else p.fresh }

/-- The tuning record is replaced, with its effects on SFE (R19) and PE (R58). -/
def replaceTuning (t : Tuning) (s : State) : State :=
  let old := s.settings.tuning
  let s :=
    { s with
      settings := { s.settings with tuning := t }
      sfe := { s.sfe with divider := if t.divider = old.divider then s.sfe.divider else 0 } }
  let s := peStep spuView (s.pe.retuned t) s
  if t.depth = old.depth then s else breakBoth s

/-! ## Requests to PE -/

/-- GET_POSTURE (R56). -/
def serveGetPosture (place : Nat) (s : State) : State := answer place (Reply.ok (.posture (postureRecord s.pe))) s

/-- The rotation lock is set ON or OFF (R53). -/
def Pe.lockRotation (on : Bool) (p : Pe) : Pe :=
  if on = true then
    if p.rotationLock = true then p else { p with rotationLock := true, lockValue := p.reported }
  else { p with rotationLock := false }

/-- The reply to SET_ROTATION_LOCK (R53). -/
def rotationReply (p : Pe) : Reply := Reply.ok (.rotation p.rotationLock p.reported)

/-- SET_ROTATION_LOCK (R53): an ORIENTATION_CHANGED goes to LC before the reply. DESIGN CHOICE (notes/assumptions/31.md): so
does what SPU sends at the same change (ADVICE_WITHDRAWN), which the manual does not order against the reply. -/
def serveSetRotationLock (place : Nat) (payload : List Byte) (s : State) : State :=
  match onOffOf (u8 payload 0) with
  | none => answer place (Reply.code .badValue) s
  | some on =>
    let s := peStep spuView (s.pe.lockRotation on) s
    answer place (rotationReply s.pe) s

/-- SET_TUNING (R58). The manual does not order the reply against what the replacement makes other blocks send. -/
def serveSetTuning (place : Nat) (payload : List Byte) (s : State) : State :=
  let asked := tuningOfPayload payload
  let t := clampTuning asked
  raceLc (answer place (Reply.clamped (decide (t ≠ asked)) (.tuning t))) (replaceTuning t) s

end Sys2Proof.Machine
end

