-- ==== Sys2Proof/Machine/Rail.lean ====
section
/-! DEFINITION. The Rail Budget Arbiter: the grant computation (R114), and the filing and the withdrawal of claims
(R112, R113). -/

namespace Sys2Proof.Machine

/-- One claim's grant from what remains: min(requested, remainder) when that reaches the minimum, else 0 (R114 step 2). -/
def grantOf (remainder : Nat) : Option Claim → Nat
  | none => 0
  | some c => if c.minimum ≤ min c.requested remainder then min c.requested remainder else 0

/-- The grant table of a capacity and a claim table, BASE then LATCH then PEN (R114). -/
def grantTable (capacity : Nat) (base latch pen : Option Claim) : Grants :=
  let b := grantOf capacity base
  let l := grantOf (capacity - b) latch
  { base := b, latch := l, pen := grantOf (capacity - b - l) pen }

/-- RBA computes the grant table from the capacity and the claims as they stand (R114). -/
def Rba.compute (r : Rba) : Rba := { r with grants := grantTable r.capacity r.base r.latch r.pen }

/-- The capacity of a pair of bands (R111). -/
def capacityOf : Supply → Thermal → Nat
  | .normal, .cool => 600
  | .normal, .warm => 300
  | .low, .cool => 400
  | .low, .warm => 200
  | .critical, .cool => 150
  | .critical, .warm => 75

/-- PDC files or replaces the PEN claim, with a minimum of 40 mA, and takes the answer as its grant (R112, R128). PEN
ranks last, so no other grant changes. -/
def filePen (requested : Nat) (s : State) : State :=
  let r := ({ s.rba with pen := some { requested := requested, minimum := 40 } } : Rba).compute
  { s with rba := r, pdc := { s.pdc with grant := r.grants.pen } }

/-- PDC withdraws the PEN claim if one is filed; its grant is then 0 (R113). -/
def withdrawPen (s : State) : State :=
  match s.rba.pen with
  | none => { s with pdc := { s.pdc with grant := 0 } }
  | some _ =>
    { s with rba := ({ s.rba with pen := none } : Rba).compute, pdc := { s.pdc with grant := 0 } }

end Sys2Proof.Machine
end

