-- ==== Sys2Proof/Machine/Pen.lean ====
section
/-! DEFINITION. The Pen Dock Controller (Chapter 7): presence, polls, the phase choice, suspension, termination, faults,
and what PDC shows and answers (R120 to R143). -/

namespace Sys2Proof.Machine

/-! ## What PDC shows (7.7) -/

/-- The pen record (R140). -/
def penRecord (p : Pdc) : PenRecord :=
  { state := p.state, remembered := p.remembered, reasons := p.reasons, fault := p.fault, last := p.last,
    grant := p.grant, setpoint := p.setpoint, chargeSeconds := p.chargeMs / 1000 }

/-- A change that offers PEN_STATE (R141). -/
def penNews (a b : Pdc) : Bool :=
  decide (a.state ≠ b.state) || decide (a.remembered ≠ b.remembered) || decide (a.reasons ≠ b.reasons) ||
  decide (a.fault ≠ b.fault) || decide (a.grant ≠ b.grant) || decide (a.setpoint ≠ b.setpoint)

/-- PDC reports a change of its state to SPU, which chooses the part mode again, and with it a wake cause if there is
one (R142, R159). The manual does not order the two reports. -/
def spuPen (c : Option WakeCause) (s : State) : State :=
  match c with
  | some c => if modeWanted s = s.spu.mode then chooseMode (cause c s) else eitherOrder (cause c) chooseMode s
  | none => chooseMode s

/-- A step of PDC: the acts `f` complete its record, then PDC offers PEN_STATE if the record calls for it and reports to
SPU, in no order between them (R141, R142). -/
def pdcStep (c : Option WakeCause) (f : State → State) (s : State) : State :=
  let t := f s
  let emit : State → State := if penNews s.pdc t.pdc = true then offer (.penState (penRecord t.pdc)) else id
  if s.pdc.state = t.pdc.state then emit t else raceLc emit (spuPen c) t

/-! ## Polls (R123) -/

/-- The poll interval of a state (R123). -/
def pollInterval : PdcState → Option Nat
  | .identifying | .precharge | .charge | .topoff => some 1000
  | .waitGrant | .suspended | .full => some 10000
  | .empty | .settling | .fault => none

/-- The poll timer at a change of state: it restarts between two polling states while no poll is outstanding (R123). -/
def pollAfter (now : Nat) (new : PdcState) (p : Pdc) : Timer :=
  if new = p.state ∨ p.outstanding = true ∨ (pollInterval p.state).isNone = true then p.poll
  else (pollInterval new).map (now + ·)

/-- PDC enters a state (R123). -/
def enterPdc (new : PdcState) (s : State) : State :=
  { s with pdc := { s.pdc with state := new, poll := pollAfter s.now new s.pdc } }

/-- The end of a poll: the poll timer restarts for the state PDC is in (R123). -/
def endPoll (s : State) : State :=
  { s with pdc := { s.pdc with poll := (pollInterval s.pdc.state).map (s.now + ·) } }

/-- A poll starts (R123). -/
def startPoll (s : State) : State :=
  sendQuery { s with pdc := { s.pdc with poll := none, outstanding := true, response := some (s.now + 50) } }

/-! ## Charging (7.3) -/

/-- The state of a charging phase. -/
def phaseState : ChargePhase → PdcState
  | .precharge => .precharge
  | .charge => .charge
  | .topoff => .topoff

/-- The amount a phase claims (R127). -/
def phaseAmount (p : PenSettings) : ChargePhase → Nat
  | .precharge => 40
  | .charge => p.maxCurrent
  | .topoff => 100

/-- Setpoint 0, then the claim is withdrawn (R129). -/
def stopCharging (s : State) : State := withdrawPen { s with pdc := { s.pdc with setpoint := 0 } }

/-- PDC stands in WAIT_GRANT remembering a phase; the claim stays filed (R128, R130). -/
def waitGrant (ph : ChargePhase) (s : State) : State :=
  enterPdc .waitGrant { s with pdc := { s.pdc with setpoint := 0, remembered := some ph, runStart := none } }

/-- PDC stands in a charging phase with the setpoint at its grant (R128, R129). A run of low readings does not outlive a
grant below 100 mA (R135). -/
def runPhase (ph : ChargePhase) (s : State) : State :=
  enterPdc (phaseState ph)
    { s with
      pdc := { s.pdc with
        setpoint := s.pdc.grant, remembered := none
        runStart := if s.pdc.grant < 100 then none else s.pdc.runStart } }

/-- PDC enters a charging phase: it files the claim and the answer decides (R128). -/
def enterPhase (ph : ChargePhase) (s : State) : State :=
  let s := filePen (phaseAmount s.settings.pen ph) s
  let s := if ph = .topoff then { s with pdc := { s.pdc with runStart := none } } else s
  if s.pdc.grant = 0 then waitGrant ph s else runPhase ph s

/-- A cycle opens unless one is open (R127). -/
def openCycle (s : State) : State :=
  if s.pdc.cycleOpen = true then s
  else
    { s with
      pdc := { s.pdc with
        cycleOpen := true, chargeMs := 0, prechargeMs := 0, runStart := none, limitMin := s.settings.pen.safety } }

/-- PDC reaches FULL (R136). -/
def reachFull (s : State) : State :=
  let s := stopCharging s
  enterPdc .full { s with pdc := { s.pdc with cycleOpen := false, runStart := none } }

/-- PDC is suspended (R134). -/
def suspendPen (s : State) : State :=
  let s := stopCharging s
  enterPdc .suspended { s with pdc := { s.pdc with remembered := none, runStart := none } }

/-- The condition of a fault reason (R139). -/
def penCond : PenFault → Cond
  | .noResponse => .penNoResponse
  | .cell => .penCellFault
  | .prechargeTimer | .safetyTimer => .penTimer

/-- The code of a fault reason (R139). -/
def penFaultCode : PenFault → Nat
  | .noResponse => 1
  | .cell => 2
  | .prechargeTimer => 3
  | .safetyTimer => 4

/-- PDC enters FAULT (R139). DEDUCED (notes/assumptions/33.md): the rise goes to CM, whose CONDITION goes to LC, before
PEN_STATE does. -/
def enterFault (reason : PenFault) (s : State) : State :=
  let s := stopCharging s
  rise (penCond reason) (penFaultCode reason)
    { s with
      pdc := { s.pdc with
        state := .fault, poll := none, response := none, outstanding := false, fault := some reason,
        cycleOpen := false, remembered := none, runStart := none } }

/-- The charging phase of a cell voltage (R127). -/
def phaseOfCell (mv : Nat) : ChargePhase :=
  if mv < 3000 then .precharge else if mv < 4150 then .charge else .topoff

/-- The phase choice, from the last PEN_STATUS (R127). PDC has one wherever the manual makes the choice. -/
def phaseChoice (s : State) : State :=
  match s.pdc.last with
  | none => s
  | some st =>
    if st.cellFault = true then enterFault .cell s
    else if s.pdc.cycleOpen = false ∧ s.settings.pen.recharge ≤ st.charge then reachFull s
    else if s.pdc.reasons ≠ 0 then suspendPen s
    else enterPhase (phaseOfCell st.cell) (openCycle s)

/-! ## Suspension (7.4) -/

/-- The suspend-reason set becomes `new`, and PDC acts on it (R134). -/
def changeReasons (new : BitVec 3) (s : State) : State :=
  let old := s.pdc.reasons
  let s := { s with pdc := { s.pdc with reasons := new } }
  if old = 0 ∧ new ≠ 0 ∧ (PdcState.charging s.pdc.state = true ∨ s.pdc.state = .waitGrant) then suspendPen s
  else if old ≠ 0 ∧ new = 0 ∧ s.pdc.state = .suspended then phaseChoice s
  else s

/-- A reason is put into the set or taken out of it. -/
def withReason (r : SuspendReason) (present : Bool) (set : BitVec 3) : BitVec 3 :=
  if present = true then bitAdd set r.idx else bitDrop set r.idx

/-- SM reports the new supply band to PDC (R133, R134); what a claim filed here is answered from is in
notes/assumptions/32.md (DEDUCED). -/
def pdcSupply (s : State) : State :=
  pdcStep none (fun s => changeReasons (withReason .supply (decide (s.sm.supply = .critical)) s.pdc.reasons) s) s

/-! ## Grant notices (R130) -/

/-- RBA's notice carries PDC's new grant, and PDC acts by state (R130). -/
def takeNotice (grant : Nat) (s : State) : State :=
  let s := { s with pdc := { s.pdc with grant := grant } }
  match s.pdc.state with
  | .precharge => if grant = 0 then waitGrant .precharge s else runPhase .precharge s
  | .charge => if grant = 0 then waitGrant .charge s else runPhase .charge s
  | .topoff => if grant = 0 then waitGrant .topoff s else runPhase .topoff s
  | .waitGrant =>
    if grant = 0 then s
    else
      match s.pdc.remembered with
      | some ph => runPhase ph s
      | none => s
  | _ => s

/-- After a computation that another consumer or the capacity caused, PDC is notified if its claim is filed and its grant
has changed (R115). -/
def noticePen (s : State) : State :=
  if s.rba.pen.isSome = true ∧ s.rba.grants.pen ≠ s.pdc.grant then pdcStep none (takeNotice s.rba.grants.pen) s else s

/-! ## Presence (7.1) -/

/-- The fall of the condition of a fault that is left (R122 step 3). -/
def fallFault (f : Option PenFault) (s : State) : State :=
  match f with
  | some r => fall (penCond r) s
  | none => s

/-- The removal of the pen (R122). DEDUCED (notes/assumptions/36.md): TEMP leaves the set at step 4 as a step of the removal,
without the phase choice of R134. -/
def removePen (s : State) : State :=
  let s := stopCharging s
  let s := fallFault s.pdc.fault s
  { s with
    pdc := { s.pdc with
      poll := none, response := none, outstanding := false, misses := 0, fault := none
      reasons := bitDrop s.pdc.reasons SuspendReason.temp.idx, last := none, remembered := none
      cycleOpen := false, chargeMs := 0, prechargeMs := 0, runStart := none, grant := 0, state := .empty } }

/-- Entry to IDENTIFYING, without its poll (R120, R126 step 1). -/
def enterIdentifying (s : State) : State := { s with pdc := { s.pdc with state := .identifying, misses := 0 } }

/-- PDC enters SETTLING (R120). -/
def settlePen (s : State) : State :=
  chooseMode { s with pdc := { s.pdc with state := .settling, settle := some (s.now + 200) } }

/-- An assertion of PDET that stands when PDC has entered EMPTY is taken afresh (R121). -/
def penAfresh (s : State) : State := if s.pdc.state = .empty ∧ s.pdc.pdet = .asserted then settlePen s else s

/-- PDET changes (R120, R121). DEDUCED (notes/assumptions/30.md): in EMPTY and SETTLING no event is offered; SPU learns of the state. -/
def pdetChanged (level : Level) (s : State) : State :=
  if level = s.pdc.pdet then s
  else
    let s := { s with pdc := { s.pdc with pdet := level } }
    match s.pdc.state, level with
    | .empty, .asserted => settlePen s
    | .empty, .released => s
    | .settling, .released => chooseMode { s with pdc := { s.pdc with state := .empty, settle := none } }
    | .settling, .asserted => s
    | _, .released => { s with pdc := { s.pdc with removal := some (s.now + 50) } }
    | _, .asserted => { s with pdc := { s.pdc with removal := none } }

/-- The settle timer has run out: IDENTIFYING, PEN_INSERTED and the first poll (R120). -/
def penSettled (s : State) : State :=
  pdcStep (some .penInserted) (fun s => startPoll (enterIdentifying s)) { s with pdc := { s.pdc with settle := none } }

/-- The removal timer has run out (R121, R122). -/
def penRemoved (s : State) : State :=
  penAfresh (pdcStep (some .penRemoved) removePen { s with pdc := { s.pdc with removal := none } })

/-! ## Statuses (R124 to R126, R131, R132) -/

/-- Fields outside their ranges are saturated (R124). -/
def saturateStatus (st : PenStatus) : PenStatus :=
  { st with cell := min 4500 st.cell, temp := clampInt (-20) 80 st.temp, charge := min 100 st.charge }

/-- The suspend-reason set after a pen temperature (R126 step 4). -/
def tempReasons (temp : Int) (set : BitVec 3) : BitVec 3 :=
  if temp < 0 ∨ 45 < temp then withReason .temp true set
  else if 3 ≤ temp ∧ temp ≤ 42 then withReason .temp false set
  else set

/-- The advance check (R131). -/
def advancePhase (mv : Nat) (s : State) : State :=
  if 4150 ≤ mv then enterPhase .topoff s
  else if s.pdc.state = .precharge ∧ 3000 ≤ mv then enterPhase .charge s
  else s

/-- The state's own handling (R132). -/
def ownHandling (st : PenStatus) (s : State) : State :=
  match s.pdc.state with
  | .identifying => phaseChoice s
  | .precharge | .charge => advancePhase st.cell s
  | .full => if st.charge < s.settings.pen.recharge then phaseChoice s else s
  | _ => s

/-- Steps 2 to 5 of R126. -/
def takeStatus (st : PenStatus) (s : State) : State :=
  let s := { s with pdc := { s.pdc with last := some st } }
  if st.cellFault = true then enterFault .cell s
  else
    let t := changeReasons (tempReasons st.temp s.pdc.reasons) s
    if decide (s.pdc.state = .suspended) != decide (t.pdc.state = .suspended) then t else ownHandling st t

/-- A status from another pen: its serial differs from that of the last PEN_STATUS (R126 step 1). -/
def otherPen (st : PenStatus) (p : Pdc) : Bool :=
  decide (p.state ≠ .identifying) &&
  match p.last with
  | some l => decide (l.serial ≠ st.serial)
  | none => false

/-- A status that answers the outstanding poll is handled (R126). -/
def handleStatus (st : PenStatus) (s : State) : State :=
  let s :=
    if otherPen st s.pdc = true then
      pdcStep (some .penInserted) enterIdentifying (pdcStep (some .penRemoved) removePen s)
    else s
  pdcStep none (fun s => endPoll (takeStatus st s)) s

/-- A PEN_STATUS arrives on PLINE (R124). -/
def penStatusArrived (intact : Bool) (st : PenStatus) (s : State) : State :=
  if intact = true ∧ s.pdc.outstanding = true then
    handleStatus (saturateStatus st)
      { s with pdc := { s.pdc with response := none, outstanding := false, misses := 0 } }
  else s

/-- The response timer has run out (R125). -/
def pollUnanswered (s : State) : State :=
  pdcStep none
    (fun s =>
      endPoll
        (let s := { s with pdc := { s.pdc with response := none, outstanding := false, misses := s.pdc.misses + 1 } }
         if 3 ≤ s.pdc.misses then enterFault .noResponse s else s))
    s

/-! ## Termination (R135) -/

/-- SM hands PDC the pen charge current (R135). -/
def penReading (current : Nat) (s : State) : State :=
  if s.pdc.state = .topoff ∧ s.pdc.grant = 100 then
    if current < s.settings.pen.termination then
      match s.pdc.runStart with
      | none => { s with pdc := { s.pdc with runStart := some s.now } }
      | some t => if t + 3000 ≤ s.now then pdcStep none reachFull s else s
    else { s with pdc := { s.pdc with runStart := none } }
  else s

/-! ## Charge timers (R138) -/

/-- The precharge time reaches 30 min (R138). -/
def prechargeExpired (s : State) : State :=
  if s.pdc.cycleOpen = true ∧ s.pdc.state = .precharge then
    pdcStep none (enterFault .prechargeTimer) (advance (1800000 - s.pdc.prechargeMs) s)
  else s

/-- The cycle charge time reaches the cycle safety limit (R138). -/
def safetyExpired (s : State) : State :=
  if s.pdc.cycleOpen = true ∧ PdcState.charging s.pdc.state = true then
    pdcStep none (enterFault .safetyTimer) (advance (s.pdc.limitMin * 60000 - s.pdc.chargeMs) s)
  else s

/-! ## Requests to PDC (R140, R143) -/

/-- GET_PEN (R140). -/
def serveGetPen (place : Nat) (s : State) : State :=
  answer place (Reply.ok (.pen (penRecord s.pdc) s.settings.pen)) s

/-- The pen settings are replaced, with their effects (R143). -/
def replacePen (p : PenSettings) (s : State) : State :=
  pdcStep none
    (fun s =>
      let old := s.settings.pen
      let s := { s with settings := { s.settings with pen := p } }
      let s := changeReasons (withReason .host (decide (p.enable = .disabled)) s.pdc.reasons) s
      if p.maxCurrent ≠ old.maxCurrent
          ∧ (s.pdc.state = .charge ∨ (s.pdc.state = .waitGrant ∧ s.pdc.remembered = some .charge)) then
        enterPhase .charge s
      else s)
    s

/-- SET_PEN_CHARGING (R143). -/
def serveSetPenCharging (place : Nat) (payload : List Byte) (s : State) : State :=
  match readPen (penOfPayload payload) with
  | none => answer place (Reply.code .badValue) s
  | some asked =>
    let p := clampPen asked
    raceLc (answer place (Reply.clamped (decide (p ≠ asked)) (.penSettings p))) (replacePen p) s

end Sys2Proof.Machine
end

