-- ==== Sys2Proof/Machine/Store.lean ====
section
/-! DEFINITION. The Settings Store's commits and saves (R195, R197). -/

namespace Sys2Proof.Machine

/-- A commit starts: the working settings are copied into the snapshot and the image is marked invalid (R195). -/
def startCommit (s : State) : State :=
  { s with
    ss := { s.ss with
      state := .writing, attempt := some 1, snapshot := some s.settings, pending := false
      image := markInvalid s.ss.image
      waiting := s.ss.waiting.map fun w => { w with mark := .running } } }

/-- A commit is requested (R195). -/
def requestCommit (s : State) : State :=
  match s.ss.state with
  | .idle => startCommit s
  | .writing | .verifying => { s with ss := { s.ss with pending := true } }

/-- The write of the image completes: SS enters VERIFYING over what the array now holds (R195). -/
def writeDone (faulty : Option Image) (s : State) : State :=
  match s.ss.state with
  | .writing =>
    { s with
      ss := { s.ss with
        state := .verifying
        image := faulty.getD ((s.ss.snapshot.map imageOf).getD s.ss.image) } }
  | .idle | .verifying => s

/-- The places of the saves that wait for the running commit (R197). -/
def runningSaves (ss : Ss) : List Nat := (ss.waiting.filter fun w => w.mark == .running).map (·.place)

/-- The end of a commit: its saves are answered together, then a pending commit starts (R195, R197). -/
def endCommit (written : Bool) (s : State) : State :=
  let attempts := s.ss.attempt.getD 0
  let places := runningSaves s.ss
  let s := if places = [] then s else answerAll places (Reply.ok (.saved written attempts)) s
  let s :=
    { s with
      ss := { s.ss with
        state := .idle, attempt := none, snapshot := none
        waiting := s.ss.waiting.filter fun w => w.mark == .pending } }
  if s.ss.pending = true then startCommit s else s

/-- The read-back comparison ends the attempt (R195). DESIGN CHOICE (notes/assumptions/34.md): an image equals the snapshot
when its content and its checksum are those of a sound write of the snapshot. -/
def verifyDone (s : State) : State :=
  match s.ss.state with
  | .idle | .writing => s
  | .verifying =>
    if s.ss.snapshot.map imageOf = some s.ss.image then endCommit true s
    else if s.ss.attempt = some 1 then
      { s with ss := { s.ss with state := .writing, attempt := some 2, image := markInvalid s.ss.image } }
    else endCommit false (rise .storeWriteFail 2 { s with ss := { s.ss with image := markInvalid s.ss.image } })

/-- SAVE_SETTINGS: the request waits for the commit that covers it (R197). -/
def serveSaveSettings (place : Nat) (s : State) : State :=
  match s.ss.state with
  | .idle => startCommit { s with ss := { s.ss with waiting := s.ss.waiting ++ [{ place := place, mark := .running }] } }
  | .writing | .verifying =>
    { s with ss := { s.ss with pending := true, waiting := s.ss.waiting ++ [{ place := place, mark := .pending }] } }

end Sys2Proof.Machine
end

