-- ==== Sys2Proof/Machine/Base.lean ====
section
/-! DEFINITION. The Base Manager, Chapter 4: presence, identification, attachment, the sample stream, base loss and the
paired-base table (R60 to R79). -/

namespace Sys2Proof.Machine

/-! ## Claims of BM (R112, R113) -/

/-- BM files or replaces the BASE claim; RBA computes and notifies PDC (R112, R115). No LATCH claim is filed while BM does
this. DEDUCED (notes/assumptions/37.md): PDC acts on its notice, PEN_STATE included, before BM takes its next step. -/
def fileBase (amount : Nat) (s : State) : State :=
  noticePen
    { s with rba := ({ s.rba with base := some { requested := amount, minimum := amount } } : Rba).compute }

/-- BM withdraws the BASE claim (R113); PDC acts on its notice before BM's next step (notes/assumptions/37.md). -/
def withdrawBase (s : State) : State :=
  match s.rba.base with
  | none => s
  | some _ => noticePen { s with rba := ({ s.rba with base := none } : Rba).compute }

/-- BM files the LATCH claim of 250 mA (R89); PDC acts on its notice before BM's next step (notes/assumptions/37.md). -/
def fileLatch (s : State) : State :=
  noticePen
    { s with rba := ({ s.rba with latch := some { requested := 250, minimum := 250 } } : Rba).compute }

/-- BM withdraws the LATCH claim (R113); PDC acts on its notice before BM's next step (notes/assumptions/37.md). -/
def withdrawLatch (s : State) : State :=
  match s.rba.latch with
  | none => s
  | some _ => noticePen { s with rba := ({ s.rba with latch := none } : Rba).compute }

/-- A BASE claim is granted while its grant equals its request (4.1). -/
def baseGranted (s : State) : Bool :=
  match s.rba.base with
  | some c => decide (s.rba.grants.base = c.requested)
  | none => false

/-! ## Reports of a change of state (R62) -/

/-- SPU takes BM's report: the part mode is chosen again, and an attachment is a possible wake cause (R62, 8.3). -/
def spuBm (attach : Bool) (s : State) : State :=
  chooseMode (if attach = true then cause .baseAttached s else s)

/-- PE has nothing to do at BM's report. -/
def peQuiet (s : State) : Bool :=
  decide (situationNow s = s.pe.situation) && (BmState.hasBase s.bm.state || s.pe.serial.isNone)

/-- BM has changed its state: SFE's view follows, and the reports to PE and SPU and BM's own acts at the change reach their
owners in no order among themselves (R62). `acts` changes no BM state. -/
def bmReport (attach : Bool) (acts : State → State) (s : State) : State :=
  let s := sfeView s
  if peQuiet s = true ∧ attach = false ∧ modeWanted s = s.spu.mode then acts s
  else anyOrder peBm (spuBm attach) acts s

/-! ## Presence (R60, R61) -/

/-- BM's base record on any entry into ABSENT (R61, R73, R95). -/
def Bm.absent (b : Bm) : Bm :=
  { b with
    state := .absent, settle := none, loss := none, bpwr := false, phase := none, cycling := none, queryOut := false
    query := none, identity := none, stream := .running, quiesce := none, newEntry := false, evicted := none
    active := none }

/-- BM's detach record on any entry into ABSENT: the wait, if any, ends without an outcome (R73, R87, R93). -/
def Det.idle (d : Det) : Det :=
  { d with deadline := .none, timer := none, closing := none, unpowered := false, lsol := false }

/-- BM enters ABSENT. -/
def toAbsent (s : State) : State := { s with bm := s.bm.absent, det := s.det.idle }

/-- BM enters SETTLING (R60). -/
def toSettling (s : State) : State := { s with bm := { s.bm with state := .settling, settle := some (s.now + 100) } }

/-- An assertion of BPRES that stands when BM has entered ABSENT is taken afresh (R61). -/
def takeAfresh (s : State) : State :=
  if s.bm.state = .absent ∧ s.bm.bpres = .asserted then toSettling s else s

/-- BPRES changes (R60, R61). PE, SFE and SPU have nothing to do between ABSENT and SETTLING. -/
def bpresChanged (level : Level) (s : State) : State :=
  if level = s.bm.bpres then s
  else
    let s := { s with bm := { s.bm with bpres := level } }
    match s.bm.state, level with
    | .absent, .asserted => bmReport false id (toSettling s)
    | .absent, .released => s
    | .settling, .released => bmReport false id { s with bm := { s.bm with state := .absent, settle := none } }
    | .settling, .asserted => s
    | _, .released => { s with bm := { s.bm with loss := some (s.now + 20) } }
    | _, .asserted => { s with bm := { s.bm with loss := none } }

/-! ## Powering and identification (R62, R64 to R66) -/

/-- BM sends IDENT_QUERY and marks it outstanding for 500 ms (R64). -/
def askIdentity (s : State) : State :=
  sendBase .identQuery { s with bm := { s.bm with queryOut := true, query := some (s.now + 500) } }

/-- BM switches BPWR on and identifies the base from QUERY_1 (R62, R64). -/
def startIdentify (s : State) : State :=
  bmReport false askIdentity { s with bm := { s.bm with state := .identifying, bpwr := true, phase := some .query1 } }

/-- In POWERING, a claim that is granted starts the identification (R62). -/
def powerIfGranted (s : State) : State := if baseGranted s = true then startIdentify s else s

/-- BM's base record on entry to POWERING (R62, R66). -/
def Bm.powering (b : Bm) : Bm :=
  { b with
    state := .powering, settle := none, bpwr := false, phase := none, cycling := none, queryOut := false, query := none }

/-- BM enters POWERING, files the claim and goes on if it is granted (R62, R66). -/
def toPowering (amount : Nat) (s : State) : State :=
  powerIfGranted (fileBase amount (bmReport false id { s with bm := s.bm.powering }))

/-- The amount of the BASE claim now filed. -/
def baseAmount (s : State) : Nat := (s.rba.base.map (·.requested)).getD 0

/-- The settle timer has run out in SETTLING (R60, R62). -/
def baseSettled (s : State) : State := toPowering 120 s

/-- The loss of power of an attached base (R66, R93). `first` is what reaches CM and LC before BASE_LOST does. -/
def lossOfPowerAfter (first : State → State) (s : State) : State :=
  let serial := s.bm.active
  let amount := baseAmount s
  let s :=
    { s with
      bm := { s.bm.powering with stream := .running, quiesce := none, active := none }
      det := { s.det with deadline := .none, timer := none, unpowered := false } }
  let s := bmReport false (fun s => offer (.baseLost .noPower serial) (rise .baseLost 2 (first s))) s
  powerIfGranted (fileBase amount s)

/-- The loss of power of an attached base, with nothing before BASE_LOST (R66, R93). -/
def lossOfPower (s : State) : State := lossOfPowerAfter id s

/-- The query timer has run out (R64, R65). -/
def queryExpired (s : State) : State :=
  let s := { s with bm := { s.bm with queryOut := false, query := none, bpwr := false } }
  match s.bm.phase with
  | some .query1 => { s with bm := { s.bm with phase := some .cycling, cycling := some (s.now + 50) } }
  | some .query2 =>
    bmReport false (rise .baseIdFail 2) (withdrawBase { s with bm := { s.bm with state := .failed, phase := none } })
  | _ => s

/-- The power cycle has ended: QUERY_2 (R64). -/
def cyclingExpired (s : State) : State :=
  askIdentity { s with bm := { s.bm with cycling := none, bpwr := true, phase := some .query2 } }

/-! ## The paired-base table (R67, R68, R74) -/

/-- The entry of a serial. -/
def findEntry (serial : Serial) (t : List BaseEntry) : Option BaseEntry := t.find? fun e => e.serial == serial

/-- The rank of a serial's entry: its place in the table, from 1 (4.6). -/
def rankOf (serial : Serial) (t : List BaseEntry) : Nat := t.findIdx (fun e => e.serial == serial) + 1

/-- The table without a serial's entry; the ranks below close up (R74, R76). -/
def dropEntry (serial : Serial) (t : List BaseEntry) : List BaseEntry := t.filter fun e => e.serial != serial

/-- The table with an entry at rank 1 and no other of its serial, of at most 4 entries (R67, R68). -/
def rankFirst (e : BaseEntry) (t : List BaseEntry) : List BaseEntry := e :: (dropEntry e.serial t).take 3

/-- The entry that a new one evicts: the one of rank 4 (R68). -/
def evictedBy (serial : Serial) (t : List BaseEntry) : Option Serial := ((dropEntry serial t)[3]?).map (·.serial)

/-- The offset of an entry rewritten (R77). -/
def writeOffset (serial : Serial) (offset : Int) (t : List BaseEntry) : List BaseEntry :=
  t.map fun e => if e.serial = serial then { e with offset := offset } else e

/-- The table becomes `t`; a change requests a commit (R74). -/
def setTable (t : List BaseEntry) (s : State) : State :=
  if t = s.settings.table then s else requestCommit { s with settings := { s.settings with table := t } }

/-- The new entry of an identity (R68). -/
def entryOf (i : Identity) : BaseEntry := { serial := i.serial, model := i.model, offset := 0 }

/-- BM creates the entry of an identity (R68). -/
def createEntry (i : Identity) (s : State) : State :=
  setTable (rankFirst (entryOf i) s.settings.table)
    { s with bm := { s.bm with newEntry := true, evicted := evictedBy i.serial s.settings.table } }

/-! ## Attachment (R67, R69, R70) -/

/-- BM starts the stream on entry to ATTACHED (R69 step 3). -/
def startStream (s : State) : State :=
  if s.spu.mode = .halt then quiesceStream s else sendBase (.setPeriod (basePeriod s.spu.mode)) s

/-- BM emits BASE_ATTACHED, then clears the marks it carried (R69 step 4). -/
def emitAttached (i : Identity) (offset : Int) (s : State) : State :=
  let s := offer (.baseAttached i 1 offset s.bm.newEntry s.bm.evicted) s
  { s with bm := { s.bm with newEntry := false, evicted := none } }

/-- BM enters ATTACHED from IDENTIFYING (R69). -/
def toAttached (i : Identity) (s : State) : State :=
  let offset := ((findEntry i.serial s.settings.table).map (·.offset)).getD 0
  let s := { s with bm := { s.bm with state := .attached, phase := none, stream := .running, active := some i.serial } }
  bmReport true (fun s => emitAttached i offset (startStream (breakBase s))) (peBase i.serial offset s)

/-- BM enters REFUSED (R70). -/
def toRefused (i : Identity) (s : State) : State :=
  bmReport false (offer (.baseRefused i.serial i.model))
    (withdrawBase { s with bm := { s.bm with state := .refused, phase := none, bpwr := false } })

/-- The identity check (R67). -/
def identityCheck (i : Identity) (s : State) : State :=
  match findEntry i.serial s.settings.table with
  | some e => toAttached i (setTable (rankFirst { e with model := i.model } s.settings.table) s)
  | none =>
    match s.settings.basePolicy with
    | .accept => toAttached i (createEntry i s)
    | .refuse => toRefused i s

/-- The claim of an identified base: min(supply draw, 200) mA (R66). -/
def drawClaim (i : Identity) : Nat := min i.draw 200

/-- An IDENT taken from the base link (R63, R66). -/
def takeIdent (i : Identity) (s : State) : State :=
  if s.bm.state = .identifying ∧ s.bm.queryOut = true ∧ 1 ≤ i.revision ∧ i.revision ≤ 15 then
    let s := { s with bm := { s.bm with queryOut := false, query := none, identity := some i } }
    let s := fileBase (drawClaim i) s
    if baseGranted s = true then identityCheck i s else toPowering (drawClaim i) s
  else s

/-! ## The stream (R71) -/

/-- QUIESCED, or the end of the wait for it: PAUSED (R71). -/
def streamPaused (s : State) : State :=
  if s.bm.stream = .pausing then sfeView { s with bm := { s.bm with stream := .paused, quiesce := none } } else s

/-! ## Base-gone outside the detach sequence (R61, R73) -/

/-- Base-gone in POWERING, IDENTIFYING, REFUSED and FAILED (R61). -/
def attachAbandoned (s : State) : State :=
  let s := if s.bm.state = .failed then fall .baseIdFail s else s
  takeAfresh (bmReport false id (withdrawBase (toAbsent s)))

/-- Base-gone in ATTACHED and DETACH_ASKED: a base loss (R73). -/
def baseLoss (s : State) : State :=
  let serial := s.bm.active
  let s := withdrawBase (toAbsent s)
  takeAfresh (bmReport false (fun s => offer (.baseLost .presence serial) (rise .baseLost 1 s)) s)

/-! ## Requests of Chapter 4 -/

/-- LIST_BASES, with the detach record (R75, R98). -/
def basesRecord (s : State) : BasesRecord :=
  { state := s.bm.state, stream := if s.bm.active.isSome = true then some s.bm.stream else none
    active := s.bm.active, identity := s.bm.identity, policy := s.settings.basePolicy, table := s.settings.table
    origin := s.det.origin, path := s.det.path, deadline := s.det.deadline, closing := s.det.closing
    outcome := s.det.outcome }

/-- LIST_BASES (R75). -/
def serveListBases (place : Nat) (s : State) : State := answer place (Reply.ok (.bases (basesRecord s))) s

/-- The active base's offset has changed: PE takes it, and the base filter breaks (R14, R29). -/
def activeOffset (offset : Int) (s : State) : State := breakBase (peOffset offset s)

/-- BM writes an offset into an entry, with a commit and, for the active base, a discontinuity, when it changes (R77). -/
def putOffset (e : BaseEntry) (offset : Int) (s : State) : State :=
  if offset = e.offset then s
  else
    let s := setTable (writeOffset e.serial offset s.settings.table) s
    if s.bm.active = some e.serial then activeOffset offset s else s

/-- FORGET_BASE of the active base: its entry is created anew with C = 0 at rank 1 (R76). -/
def forgetActive (e : BaseEntry) (s : State) : State :=
  let model := (s.bm.identity.map (·.model)).getD e.model
  let s := setTable (rankFirst { serial := e.serial, model := model, offset := 0 } s.settings.table) s
  if e.offset = 0 then s else activeOffset 0 s

/-- FORGET_BASE (R76). -/
def serveForgetBase (place : Nat) (payload : List Byte) (s : State) : State :=
  match findEntry (u48 payload 0) s.settings.table with
  | none => answer place (Reply.code .badValue) s
  | some e =>
    raceLc (answer place (Reply.ok .none))
      (fun s =>
        if s.bm.active = some e.serial then forgetActive e s
        else setTable (dropEntry e.serial s.settings.table) s)
      s

/-- The entry that SET_BASE_OFFSET names, or the result that refuses it (R77, 10.8). -/
def offsetTarget (payload : List Byte) (s : State) : Result ⊕ BaseEntry :=
  match u8 payload 0 with
  | 0 =>
    match findEntry (u48 payload 1) s.settings.table with
    | some e => .inr e
    | none => .inl .badValue
  | 1 =>
    match s.bm.active with
    | none => .inl .wrongState
    | some a =>
      match findEntry a s.settings.table with
      | some e => .inr e
      | none => .inl .badValue
  | _ => .inl .badValue

/-- SET_BASE_OFFSET (R77). -/
def serveSetBaseOffset (place : Nat) (payload : List Byte) (s : State) : State :=
  match offsetTarget payload s with
  | .inl r => answer place (Reply.code r) s
  | .inr e =>
    let asked := s16 payload 7
    let c := clampInt (-720) 720 asked
    raceLc (answer place (Reply.clamped (decide (c ≠ asked)) (.entry { e with offset := c } (rankOf e.serial s.settings.table)))) (putOffset e c) s

/-- ACCEPT_BASE (R70): the reply, then the entry, then POWERING. -/
def serveAcceptBase (place : Nat) (s : State) : State :=
  match s.bm.state, s.bm.identity with
  | .refused, some i =>
    toPowering (drawClaim i)
      (answer place (Reply.ok (.admitted (entryOf i) 1 (evictedBy i.serial s.settings.table))) (createEntry i s))
  | _, _ => answer place (Reply.code .wrongState) s

/-- SET_BASE_POLICY (R79). -/
def serveSetBasePolicy (place : Nat) (payload : List Byte) (s : State) : State :=
  match basePolicyOf (u8 payload 0) with
  | none => answer place (Reply.code .badValue) s
  | some p => answer place (Reply.ok .none) { s with settings := { s.settings with basePolicy := p } }

/-- The offset that would make θ the true angle (R78). -/
def calibrated (true_ theta : Nat) (offset : Int) : Int := ((true_ : Int) - theta + offset + 2880) % 5760 - 2880

/-- The active base's entry, when CALIBRATE_HINGE is meaningful (R78). -/
def calibrateTarget (s : State) : Option BaseEntry :=
  if s.bm.state = .attached ∧ s.pe.posture.state = .locked ∧ s.pe.fresh = true ∧ s.pe.thetaCurrent = true then
    s.bm.active.bind fun a => findEntry a s.settings.table
  else none

/-- CALIBRATE_HINGE (R78). -/
def serveCalibrateHinge (place : Nat) (payload : List Byte) (s : State) : State :=
  match calibrateTarget s with
  | none => answer place (Reply.code .wrongState) s
  | some e =>
    let asked := u16 payload 0
    let true_ := min 5759 asked
    let theta := s.pe.theta.getD 0
    let c' := calibrated true_ theta e.offset
    let c := clampInt (-720) 720 c'
    raceLc
      (answer place (Reply.clamped (decide (true_ ≠ asked) || decide (c ≠ c')) (.calibration theta e.offset c)))
      (putOffset e c) s

end Sys2Proof.Machine
end

