-- ==== Sys2Proof/Machine/Detach.lean ====
section
/-! DEFINITION. The Base Manager, Chapter 5: the detach button, consent, the release of the latch and its closing (R81 to
R99), and the grant notices BM takes (R66, R92, R93, R115). -/

namespace Sys2Proof.Machine

/-! ## The end of an attempt (R82, R93, R94, R98) -/

/-- Does an outcome start the blink timer (R82, R98). -/
def DetachOutcome.blinks : DetachOutcome → Bool
  | .denied | .noPower | .latchStuck | .consentTimeoutDenied => true
  | .detached | .timedOut | .cancelled => false

/-- The detach record with an outcome written: no deadline, no closing reason, and the blink of R82. -/
def Det.ended (o : DetachOutcome) (now : Nat) (d : Det) : Det :=
  { d with
    outcome := some o, deadline := .none, timer := none, closing := none
    blink := if DetachOutcome.blinks o = true then some (now + 2000) else d.blink }

/-- DETACH_RESULT (R98). -/
def offerResult (o : DetachOutcome) (serial : Option Serial) (s : State) : State :=
  offer (.detachResult o s.det.origin s.det.path serial) s

/-- An attempt ends with an outcome: `first` reaches CM, then DETACH_RESULT reaches LC (R98), and BM returns to ATTACHED, or,
when the base has lost its supply meanwhile, goes to POWERING with BASE_LOST after DETACH_RESULT (R93). Where BM's change of
state also changes P, PE's report of it reaches CM and LC before or after these: the manual does not order the two
(notes/assumptions/1.md). -/
def endAttemptAfter (first : State → State) (o : DetachOutcome) (s : State) : State :=
  let serial := s.bm.active
  let s := { s with det := s.det.ended o s.now }
  let tell := fun s => offerResult o serial (first s)
  if s.det.unpowered = true then eitherTime tell lossOfPowerAfter s
  else bmReport false (raceLc tell compareStream) { s with bm := { s.bm with state := .attached } }

/-- An attempt ends with an outcome that raises no condition (R98). -/
def endAttempt (o : DetachOutcome) (s : State) : State := endAttemptAfter id o s

/-- An attempt ends because the latch is stuck (R90, R94, R96): LATCH_STUCK rises before DETACH_RESULT, and PE's report of a P
that the same end changes and the rise reach CM in either order (R170). -/
def endStuck (detail : Nat) (s : State) : State := endAttemptAfter (rise .latchStuck detail) .latchStuck s

/-- The outcome that a closing reason becomes (R94). -/
def closingOutcome : Option ClosingReason → DetachOutcome
  | some .timedOut => .timedOut
  | some .cancelled => .cancelled
  | some .noPower => .noPower
  | none => .cancelled

/-- BM enters CLOSING with a closing reason; the latch may have shut already (R94). -/
def toClosing (why : ClosingReason) (s : State) : State :=
  let s := withdrawLatch { s with det := { s.det with lsol := false, timer := none } }
  let s :=
    { s with
      bm := { s.bm with state := .closing }
      det := { s.det with closing := some why, deadline := .closeCheck, timer := some (s.now + 150) } }
  let s := bmReport false compareStream s
  match s.det.lsw with
  | .shut => endAttempt (closingOutcome (some why)) s
  | .opened => s

/-! ## Releasing (R89 to R92) -/

/-- LSW has confirmed the opening: the release window (R91). -/
def startWindow (s : State) : State :=
  { s with det := { s.det with deadline := .window, timer := some (s.now + s.settings.detach.window) } }

/-- The open check (R90). -/
def openCheck (s : State) : State :=
  let s :=
    { s with
      det := { s.det with lsol := true, energised := true, deadline := .openCheck, timer := some (s.now + 150) } }
  match s.det.lsw with
  | .opened => startWindow s
  | .shut => s

/-- The LATCH claim of 250 mA is granted (R89). -/
def latchGranted (s : State) : Bool := s.rba.latch.isSome && decide (s.rba.grants.latch = 250)

/-- BM enters RELEASING (R89). -/
def toReleasing (s : State) : State :=
  let s :=
    { s with
      bm := { s.bm with state := .releasing }
      det := { s.det with
        blink := none, energised := false, deadline := .grantWait, timer := some (s.now + 1000) } }
  let s := fileLatch (bmReport false compareStream s)
  if latchGranted s = true then openCheck s else s

/-- An attempt whose latch was never energised ends: the LATCH claim is withdrawn and BM returns to ATTACHED (R89, R92). -/
def giveUpLatch (o : DetachOutcome) (s : State) : State := endAttempt o (withdrawLatch s)

/-! ## Grant notices to BM (R115, R116) -/

/-- A notice for the BASE claim, by BM's state (R62, R66, R93). -/
def noticeBase (s : State) : State :=
  match s.bm.state with
  | .powering => powerIfGranted s
  | .identifying => if baseGranted s = true then s else toPowering (baseAmount s) s
  | .attached | .detachAsked => if baseGranted s = true then s else lossOfPower s
  | .releasing | .closing =>
    if baseGranted s = true then s
    else { s with bm := { s.bm with bpwr := false }, det := { s.det with unpowered := true } }
  | .absent | .settling | .refused | .failed => s

/-- A notice for the LATCH claim: the open check in GRANT_WAIT, or a revocation while LSOL is on (R89, R92). -/
def noticeLatch (s : State) : State :=
  if s.bm.state = .releasing then
    if s.det.deadline = .grantWait ∧ latchGranted s = true then openCheck s
    else if s.det.lsol = true ∧ s.rba.grants.latch = 0 then toClosing .noPower s
    else s
  else s

/-- The notices of a computation that a change of capacity caused (R115): each consumer whose claim is filed and whose
grant has changed. -/
def noticeAll (old : Grants) (s : State) : State :=
  let b := s.rba.base.isSome && decide (s.rba.grants.base ≠ old.base)
  let l := s.rba.latch.isSome && decide (s.rba.grants.latch ≠ old.latch)
  let p := s.rba.pen.isSome && decide (s.rba.grants.pen ≠ old.pen)
  let base := if b = true then noticeBase else id
  let latch := if l = true then noticeLatch else id
  if (b && l) || (b && p) || (l && p) then anyOrder base latch noticePen s
  else noticePen (latch (base s))

/-! ## The button (R81, R83, R84, R87, R92) -/

/-- A press on the STANDING path with DENY: the attempt begins and ends in ATTACHED (R84). -/
def standingRefusal (s : State) : State :=
  offerResult .denied s.bm.active { s with det := s.det.ended .denied s.now }

/-- Is a new attempt barred: the lid is shut, or LATCH_STUCK is latched (R83, R88, R169). -/
def detachBarred (s : State) : Bool := decide (s.sfe.lid.level = .asserted) || latchedFlag .latchStuck s

/-- BM enters DETACH_ASKED (R83). -/
def askConsent (s : State) : State :=
  let s :=
    { s with
      bm := { s.bm with state := .detachAsked }
      det := { s.det with
        origin := some .button, path := some .host, blink := none, deadline := .consent
        timer := some (s.now + s.settings.detach.consentTimeout) } }
  bmReport false
    (raceLc (offer (.detachRequest s.bm.active s.settings.detach.consentTimeout s.settings.detach.timeoutAction))
      compareStream)
    s

/-- A press taken in ATTACHED (R83, R84). -/
def pressAttached (s : State) : State :=
  if detachBarred s = true then s
  else if s.spu.host = .running ∧ bitHas s.lc.grant EventClass.detach.idx = true then askConsent s
  else
    let s := { s with det := { s.det with origin := some .button, path := some .standing } }
    match s.settings.detach.standing with
    | .allow => toReleasing s
    | .deny => standingRefusal s

/-- A press taken in RELEASING (R92). -/
def pressReleasing (s : State) : State :=
  if s.det.energised = true then toClosing .cancelled s else giveUpLatch .cancelled s

/-- BM takes a press by its state (R81). -/
def bmPress (s : State) : State :=
  match s.bm.state with
  | .attached => pressAttached s
  | .detachAsked => endAttempt .cancelled s
  | .releasing => pressReleasing s
  | .absent | .settling | .powering | .identifying | .refused | .failed | .closing => s

/-- A press: SPU is told first, then BM takes it (R81). -/
def press (s : State) : State := bmPress (cause .detachButton s)

/-- DBTN changes (R81). -/
def dbtnChanged (level : Level) (s : State) : State :=
  if level = s.det.dbtn then s
  else
    match s.det.debounce with
    | .steady =>
      { s with det := { s.det with dbtn := level, debounce := .changing, hold := some (s.now + 50) } }
    | .changing => { s with det := { s.det with dbtn := level, debounce := .steady, hold := none } }

/-- The button hold timer has run out (R81). -/
def buttonHeld (s : State) : State :=
  let s := { s with det := { s.det with button := s.det.dbtn, debounce := .steady, hold := none } }
  match s.det.button with
  | .asserted => press s
  | .released => s

/-- What DLED shows (R82). -/
def lamp (d : Det) : Lamp := if d.blink.isSome = true then .blink else if d.lsol = true then .on else .off

/-! ## The lid, the timers and the latch switch -/

/-- BM takes SFE's report of a debounced change of LIDH (R87). -/
def bmLid (level : Level) (s : State) : State :=
  if level = .asserted ∧ s.bm.state = .detachAsked then endAttempt .cancelled s else s

/-- The consent timer has run out (R86). -/
def consentExpired (s : State) : State :=
  match s.settings.detach.timeoutAction with
  | .deny => endAttempt .consentTimeoutDenied s
  | .allow => toReleasing s

/-- The open check has failed (R90). -/
def openCheckFailed (s : State) : State :=
  let s := withdrawLatch { s with det := { s.det with lsol := false, timer := none } }
  endStuck 1 s

/-- The close check has failed (R94). -/
def closeCheckFailed (s : State) : State := endStuck 2 s

/-- The BM state in which a deadline is in force (Chapter 5). -/
def deadlineState : Deadline → Option BmState
  | .none => none
  | .consent => some .detachAsked
  | .grantWait | .openCheck | .window => some .releasing
  | .closeCheck => some .closing

/-- Is this deadline in force. -/
def inForce (d : Deadline) (s : State) : Bool :=
  decide (s.det.deadline = d) && decide (deadlineState d = some s.bm.state)

/-- The timer of the deadline in force, when it is this deadline. -/
def deadlineTimer (d : Deadline) (s : State) : Timer := whenIn (inForce d s) s.det.timer

/-- The blink timer has run out (R82). -/
def blinkEnded (s : State) : State := { s with det := { s.det with blink := none } }

/-- LSW changes: an opening confirmed in the open check (R90), a closing confirmed in the close check (R94). -/
def lswChanged (pos : LatchPos) (s : State) : State :=
  let s := { s with det := { s.det with lsw := pos } }
  match pos with
  | .opened => if inForce .openCheck s = true then startWindow s else s
  | .shut => if inForce .closeCheck s = true then endAttempt (closingOutcome s.det.closing) s else s

/-- Base-gone in RELEASING and CLOSING: a detach (R95). -/
def baseDetach (s : State) : State :=
  let serial := s.bm.active
  let s := withdrawLatch { s with det := { s.det with lsol := false, timer := none } }
  let s := withdrawBase { s with bm := { s.bm with bpwr := false } }
  let s := { s with det := { s.det.idle with outcome := some .detached }, bm := s.bm.absent }
  takeAfresh (bmReport false (fun s => offer (.baseDetached serial) (offerResult .detached serial s)) s)

/-- The loss timer has run out: base-gone by BM's state (R61). -/
def baseIsGone (s : State) : State :=
  match s.bm.state with
  | .powering | .identifying | .refused | .failed => attachAbandoned s
  | .attached | .detachAsked => baseLoss s
  | .releasing | .closing => baseDetach s
  | .absent | .settling => s

/-! ## Requests of Chapter 5 -/

/-- ALLOW taken in DETACH_ASKED: the reply, then RELEASING (R85, R88). -/
def consentAllowed (place : Nat) (s : State) : State := toReleasing (answer place (Reply.ok .none) s)

/-- DETACH_CONSENT (R85). -/
def serveDetachConsent (place : Nat) (payload : List Byte) (s : State) : State :=
  if bitHas s.lc.grant EventClass.detach.idx = true then
    match consentOf (u8 payload 0) with
    | none => answer place (Reply.code .badValue) s
    | some c =>
      if s.bm.state = .detachAsked then
        match c with
        | .allow => consentAllowed place s
        | .deny => endAttempt .denied (answer place (Reply.ok .none) s)
      else answer place (Reply.code .wrongState) s
  else answer place (Reply.code .notGranted) s

/-- REQUEST_DETACH (R88). -/
def serveRequestDetach (place : Nat) (s : State) : State :=
  match s.bm.state with
  | .attached =>
    if detachBarred s = true then answer place (Reply.code .wrongState) s
    else
      toReleasing
        (answer place (Reply.ok .none) { s with det := { s.det with origin := some .request, path := some .host } })
  | .detachAsked => consentAllowed place s
  | _ => answer place (Reply.code .wrongState) s

/-- SET_DETACH_POLICY (R99). -/
def serveSetDetachPolicy (place : Nat) (payload : List Byte) (s : State) : State :=
  match readDetach (detachOfPayload payload) with
  | none => answer place (Reply.code .badValue) s
  | some asked =>
    let p := clampDetach asked
    answer place (Reply.clamped (decide (p ≠ asked)) (.detachPolicy p))
      { s with settings := { s.settings with detach := p } }

end Sys2Proof.Machine
end

