-- ==== Sys2Proof/Machine/Supply.lean ====
section
/-! DEFINITION. The Supply Monitor (Chapter 6): scans, the two bands, and what a band change hands on (R101 to R111). -/

namespace Sys2Proof.Machine

/-! ## Bands (6.2) -/

/-- The target supply band of a reading (R104). -/
def supplyTarget (band : Supply) (mv : Nat) : Supply :=
  match band with
  | .normal => if mv < 3300 then .critical else if mv < 3500 then .low else .normal
  | .low => if mv < 3300 then .critical else if 3600 ≤ mv then .normal else .low
  | .critical => if 3600 ≤ mv then .normal else if 3400 ≤ mv then .low else .critical

/-- The target thermal band of a reading (R106). -/
def thermalTarget (band : Thermal) (temp : Int) : Thermal :=
  match band with
  | .cool => if 60 ≤ temp then .warm else .cool
  | .warm => if temp < 55 then .cool else .warm

section
variable {α : Type} [DecidableEq α]

/-- The confirmation of a band: the new band and candidate (R105). -/
def confirm (target band : α) (candidate : Option α) : α × Option α :=
  if target = band then (band, none)
  else if candidate = some target then (target, none)
  else (band, some target)

end

/-- SM's records after the readings of a completed scan are recorded (R103 step 1). -/
def Sm.record (vsys : Nat) (temp : Int) (pen : Nat) (m : Sm) : Sm :=
  { m with vsys := some vsys, temp := some temp, penCurrent := some pen }

/-- Both band records evaluated on the readings (R103 step 3). -/
def Sm.evaluate (vsys : Nat) (temp : Int) (m : Sm) : Sm :=
  let u := confirm (supplyTarget m.supply vsys) m.supply m.supplyCandidate
  let t := confirm (thermalTarget m.thermal temp) m.thermal m.thermalCandidate
  { m with supply := u.1, supplyCandidate := u.2, thermal := t.1, thermalCandidate := t.2 }

/-! ## What a band change hands on (6.3) -/

/-- A state condition follows its cause: a rise or a fall where the cause has begun or ended (R108). -/
def follow (c : Cond) (was isNow : Bool) (detail : Nat) (s : State) : State :=
  if was = isNow then s else if isNow = true then rise c detail s else fall c s

/-- SUPPLY_LOW is live in LOW and CRITICAL (R108). -/
def Supply.isLow : Supply → Bool
  | .normal => false
  | .low | .critical => true

/-- SM's reports of the supply and thermal conditions to CM, in the order of R108: SUPPLY_LOW rises before
SUPPLY_CRITICAL rises, SUPPLY_CRITICAL falls before SUPPLY_LOW falls, and THERMAL_WARM comes last. -/
def reportBands (old : Sm) (vsys : Nat) (temp : Int) (s : State) : State :=
  let detail := vsys / 20
  let lowRise : State → State :=
    if Supply.isLow old.supply = false then follow .supplyLow false (Supply.isLow s.sm.supply) detail else id
  let critical := follow .supplyCritical (decide (old.supply = .critical)) (decide (s.sm.supply = .critical)) detail
  let lowFall : State → State :=
    if Supply.isLow old.supply = true then follow .supplyLow true (Supply.isLow s.sm.supply) detail else id
  let warm := follow .thermalWarm (decide (old.thermal = .warm)) (decide (s.sm.thermal = .warm)) (temp + 40).toNat
  warm (lowFall (critical (lowRise s)))

/-- SPU re-evaluates the SUPPLY condition at SM's report (R147). -/
def spuSupply (s : State) : State := evalTrigger .supply s

/-- Steps 1 and 2 of R107. DEDUCED (notes/assumptions/32.md): a claim that PDC files at step 1, on leaving CRITICAL, is
computed over the old capacity, which step 3 replaces. The reports of the supply band to PDC and to SPU and those to CM reach their owners in no order
among themselves; PDC and SPU have nothing to do unless CRITICAL is entered or left. -/
def handBands (old : Sm) (vsys : Nat) (temp : Int) (s : State) : State :=
  if decide (old.supply = .critical) = decide (s.sm.supply = .critical) then reportBands old vsys temp s
  else anyOrder pdcSupply spuSupply (reportBands old vsys temp) s

/-- Step 3 of R107: RBA takes the capacity of the new bands, computes the grants and notifies (R111, R114, R115). -/
def handCapacity (s : State) : State :=
  let old := s.rba.grants
  noticeAll old
    { s with rba := ({ s.rba with capacity := capacityOf s.sm.supply s.sm.thermal } : Rba).compute }

/-- A claim as the supply record shows it (R110). -/
def claimView (c : Option Claim) (grant : Nat) : Option ClaimView :=
  c.map fun c => { requested := c.requested, minimum := c.minimum, grant := grant }

/-- The supply record (R110). -/
def supplyRecord (m : Sm) (r : Rba) : SupplyRecord :=
  { vsys := m.vsys, temp := m.temp, penCurrent := m.penCurrent, supply := m.supply
    supplyCandidate := m.supplyCandidate, thermal := m.thermal, thermalCandidate := m.thermalCandidate
    capacity := r.capacity, base := claimView r.base r.grants.base, latch := claimView r.latch r.grants.latch
    pen := claimView r.pen r.grants.pen, total := r.grants.base + r.grants.latch + r.grants.pen }

/-- Step 4 of R107: SUPPLY_BAND (R109). -/
def offerSupply (s : State) : State := offer (.supplyBand (supplyRecord s.sm s.rba)) s

/-- The band change is handed on in the order of R107's steps (DEDUCED, against the worked example "A battery running down":
notes/assumptions/32.md). -/
def handOn (old : Sm) (vsys : Nat) (temp : Int) (s : State) : State :=
  offerSupply (handCapacity (handBands old vsys temp s))

/-! ## Scans (6.1) -/

/-- The scanner's period timer has run out: it restarts, and an idle scanner starts a scan (R101). -/
def scanDue (s : State) : State :=
  { s with sm := { s.sm with period := some (s.now + s.sm.periodMs), scanning := true } }

/-- A scan completes; every reading is saturated at the ends of its range (R103). -/
def scanCompleted (vsys : Nat) (temp : Int) (pen : Nat) (s : State) : State :=
  let v := min 5000 vsys
  let t := clampInt (-40) 125 temp
  let c := min 300 pen
  let s := penReading c { s with sm := ({ s.sm with scanning := false } : Sm).record v t c }
  let old := s.sm
  let s := { s with sm := s.sm.evaluate v t }
  if old.supply = s.sm.supply ∧ old.thermal = s.sm.thermal then s else handOn old v t s

/-- GET_SUPPLY (R110). -/
def serveGetSupply (place : Nat) (s : State) : State :=
  answer place (Reply.ok (.supply (supplyRecord s.sm s.rba))) s

end Sys2Proof.Machine
end

