-- ==== Sys2Proof/Machine/Sensing.lean ====
section
/-! DEFINITION. The Sensor Front End (Chapter 1): display reads (R2 to R6), samples (R7, R10 to R12, R15, R16) and magnet
inputs (R17, R18). -/

namespace Sys2Proof.Machine

/-! ## Display reads (1.2) -/

/-- Is a display read in flight: the reader is READING, or STOPPED over a read whose discard mark is set (R6). -/
def readInFlight (f : Sfe) : Bool := decide (f.reader = .reading) || f.discard

/-- The period timer has run out: it restarts, and an IDLE reader starts a read (R2). -/
def readDue (s : State) : State :=
  let s := restartPeriod s
  match s.sfe.reader with
  | .idle => { s with sfe := { s.sfe with reader := .reading, readLimit := some (s.now + 10) } }
  | .reading | .stopped => s

/-- A completion whose discard mark is set is dropped (R6). -/
def dropRead (s : State) : State :=
  { s with
    sfe := { s.sfe with
      discard := false, readLimit := none, reader := if s.spu.mode = .halt then .stopped else .idle } }

/-- DSENS_FAULT rises: PE is halted, CM told, and the period becomes 1000 ms (R4). SFE's report to CM and its word to PE go
to different owners; the manual does not order what they send. -/
def sensorFault (code : Nat) (s : State) : State :=
  eitherOrder (rise .dsensFault code) peHalt (restartPeriod { s with sfe := { s.sfe with fault := true } })

/-- The code of a failure that the bus controller reports (R3). -/
def failureCode : ReadFailure → Nat
  | .noAck => 1
  | .busError => 2

/-- A failure completion with its code (R4). -/
def readFailed (code : Nat) (s : State) : State :=
  if s.sfe.discard = true then dropRead s
  else
    let s :=
      { s with
        sfe := { s.sfe with reader := .idle, readLimit := none, failures := min 3 (s.sfe.failures + 1) } }
    if s.sfe.failures = 3 ∧ s.sfe.fault = false then sensorFault code s else s

/-- The recovery (R5). -/
def recover (s : State) : State :=
  let s := { s with sfe := { s.sfe with fault := false } }
  breakRecovery (restartPeriod (fall .dsensFault s))

/-! ## Base freshness (1.4) -/

/-- Three display periods of a part mode (R11). -/
def freshWindow (m : PartMode) : Nat := 3 * readPeriod m

/-- The base status at a display sample (R11). -/
def judgeBase (now : Nat) (m : PartMode) (f : Sfe) : BaseStatus :=
  match f.view with
  | .none => .none
  | .paused => .paused
  | .running =>
    match f.lastArrival with
    | none => .stale
    | some t => if freshWindow m < now - t then .stale else if f.moving = true then .moving else .fresh

/-- The stale run count after a judgement (R12). -/
def staleAfter (st : BaseStatus) (run : Nat) : Nat := if st = .stale then min 25 (run + 1) else 0

/-- SFE judges the base status and, at a stale run of 25, BASE_SAMPLES_LATE rises (R11, R12). -/
def judge (s : State) : State :=
  let st := judgeBase s.now s.spu.mode s.sfe
  let s := { s with sfe := { s.sfe with lastStatus := some st, staleRun := staleAfter st s.sfe.staleRun } }
  if s.sfe.staleRun = 25 ∧ s.sfe.late = false then
    rise .baseSamplesLate 0 { s with sfe := { s.sfe with late := true } }
  else s

/-- SFE takes a BASE_SAMPLE (R10). -/
def takeBaseSample (v : Vec3) (s : State) : State :=
  let s :=
    if s.sfe.late = true then breakBase (fall .baseSamplesLate { s with sfe := { s.sfe with late := false } }) else s
  let f := { s.sfe with bRaw := some v, lastArrival := some s.now }
  if plausible v = true then
    { s with sfe := { f with moving := false, bFilter := some (feed s.settings.tuning.depth f.bFilter v) } }
  else { s with sfe := { f with moving := true } }

/-- A BASE_SAMPLE arrives on BRX: BM passes it to SFE while the stream is RUNNING (R10, R63). -/
def baseSampleArrived (v : Vec3) (s : State) : State :=
  if BmState.hasBase s.bm.state = true ∧ s.bm.stream = .running then takeBaseSample v s else s

/-! ## What a display sample hands on (1.6) -/

/-- SFE records the raw display sample, judges its plausibility and feeds the filter (R15 step 1). -/
def recordDisplay (v : Vec3) (s : State) : State :=
  { s with
    sfe := { s.sfe with
      dRaw := some v, dPlausible := some (plausible v)
      dFilter := if plausible v = true then some (feed s.settings.tuning.depth s.sfe.dFilter v) else s.sfe.dFilter } }

/-- The sample notice that SFE hands to PE (R15 step 3). -/
def noticeOf (v : Vec3) (f : Sfe) : Notice :=
  { raw := v, plausible := plausible v, display := f.dFilter, status := f.lastStatus.getD .none, base := f.bFilter
    lid := f.lid.level, fold := f.fold.level }

/-- The vectors as a VECTORS event and GET_VECTORS show them (R16). -/
def vectorsRecord (f : Sfe) : VectorsRecord :=
  { displayRaw := f.dRaw, displayFiltered := f.dFilter, baseRaw := f.bRaw, baseFiltered := f.bFilter }

/-- SFE advances the vectors divider (R15 step 4, R16). -/
def advanceDivider (s : State) : State :=
  if s.settings.tuning.divider ≤ s.sfe.divider + 1 then
    offer (.vectors (vectorsRecord s.sfe)) { s with sfe := { s.sfe with divider := 0 } }
  else { s with sfe := { s.sfe with divider := s.sfe.divider + 1 } }

/-- The four steps of R15. -/
def processSample (v : Vec3) (s : State) : State :=
  let s := judge (recordDisplay v s)
  advanceDivider (sampleNotice (noticeOf v s.sfe) s)

/-- A SAMPLE completion (R3, R5, R15). -/
def readSampled (v : Vec3) (s : State) : State :=
  if s.sfe.discard = true then dropRead s
  else
    let s := { s with sfe := { s.sfe with reader := .idle, readLimit := none, failures := 0 } }
    processSample v (if s.sfe.fault = true then recover s else s)

/-- GET_VECTORS (R16). -/
def vectorsStatus (depth : Nat) (f : Sfe) : VectorsStatus :=
  { vectors := vectorsRecord f, plausible := f.dPlausible, moving := f.moving, lastStatus := f.lastStatus
    failures := f.failures, fault := f.fault, late := f.late, depth := depth }

/-- GET_VECTORS (R16). -/
def serveGetVectors (place : Nat) (s : State) : State :=
  answer place (Reply.ok (.vectors (vectorsStatus s.settings.tuning.depth s.sfe))) s

/-! ## Magnet inputs (1.7) -/

/-- The magnet record of an input. -/
def magnetRec (m : Magnet) (f : Sfe) : MagnetRec :=
  match m with
  | .lid => f.lid
  | .fold => f.fold

/-- The magnet record replaced. -/
def setMagnet (m : Magnet) (r : MagnetRec) (f : Sfe) : Sfe :=
  match m with
  | .lid => { f with lid := r }
  | .fold => { f with fold := r }

/-- A raw level changes: STEADY goes to CHANGING under the hold time of the tuning record, CHANGING back to STEADY (R17). -/
def MagnetRec.change (hall now : Nat) (level : Level) (r : MagnetRec) : MagnetRec :=
  if level = r.raw then r
  else
    match r.debounce with
    | .steady => { r with raw := level, debounce := .changing, hold := hall, timer := some (now + hall) }
    | .changing => { r with raw := level, debounce := .steady, timer := none }

/-- The raw level of a magnet input changes (R17). -/
def magnetChanged (m : Magnet) (level : Level) (s : State) : State :=
  { s with sfe := setMagnet m ((magnetRec m s.sfe).change s.settings.tuning.hall s.now level) s.sfe }

/-- SFE reports a debounced change of LIDH to PE, SPU and BM, in no order among them (R18). BM acts on an assertion in
DETACH_ASKED alone. -/
def lidReported (level : Level) (s : State) : State :=
  if level = .asserted ∧ s.bm.state = .detachAsked then anyOrder peForcing (spuLid level) (bmLid level) s
  else if level = .released ∧ s.settings.sleep.lidConfirm = 0 then eitherOrder peForcing (spuLid level) s
  else spuLid level (peForcing s)

/-- A magnet hold timer has run out: the debounced level takes the raw level and the change is reported (R17, R18). -/
def magnetHeld (m : Magnet) (s : State) : State :=
  let r := magnetRec m s.sfe
  let s := { s with sfe := setMagnet m { r with level := r.raw, debounce := .steady, timer := none } s.sfe }
  match m, r.raw with
  | .lid, .released => lidReported .released (breakBoth s)
  | .lid, .asserted => lidReported .asserted s
  | .fold, _ => s

end Sys2Proof.Machine
end

