-- ==== Sys2Proof/Machine/Sleep.lean ====
section
/-! DEFINITION. The requests that SPU answers (Chapter 8): HOST_STATE (R145, R146, R151, R155, R158), GET_SLEEP,
SET_SLEEP_POLICY and SET_WAKE_CAUSES (R161 to R163). -/

namespace Sys2Proof.Machine

/-! ## HOST_STATE (R145, R146) -/

/-- No wake episode: timers cancelled, HWAKE released, cause set empty, no attempt (R146). -/
def Spu.noEpisode (u : Spu) : Spu :=
  { u with wake := none, gap := none, hwake := false, causes := 0, attempt := 0, limit := none }

/-- The reasons of the triggers that have matured. -/
def maturedSet (u : Spu) : BitVec 3 :=
  let a := if u.lid.matured = true then bitAdd 0 Trigger.lid.idx else 0
  let b := if u.faceDown.matured = true then bitAdd a Trigger.faceDown.idx else a
  if u.supply.matured = true then bitAdd b Trigger.supply.idx else b

/-- SPU enters AWAKE, where every matured trigger joins the advised set (R151); the lid-confirm timer is cancelled (R153). -/
def Spu.wakeUp (u : Spu) : Spu :=
  { u with
    lidConfirm := none, advised := maturedSet u, state := if maturedSet u = 0 then .awake else .advised }

/-- SPU enters SUSPENDING (R146). -/
def Spu.suspending (u : Spu) : Spu := { u with advised := 0, pending := 0, state := .suspending }

/-- SPU's record after a valid HOST_STATE, by the table of R146. -/
def Spu.hostMoved (now : Nat) (p : SleepPolicy) (v : HostView) (u : Spu) : Spu :=
  let w := { u with host := v }
  match v, u.state with
  | .running, .awake | .running, .advised => w
  | .running, .suspending => Spu.wakeUp { w with pending := 0 }
  | .running, .asleep | .running, .off => Spu.wakeUp w
  | .running, .waking => Spu.wakeUp (Spu.noEpisode w)
  | .suspending, .suspending => w
  | .suspending, .waking => Spu.suspending (Spu.noEpisode w)
  | .suspending, _ => Spu.suspending w
  | .suspended, .suspending =>
    if w.pending = 0 then { w with state := .asleep }
    else Spu.episode now p w.pending { w with pending := 0 }
  | .suspended, .asleep | .suspended, .waking => w
  | .suspended, _ => { w with advised := 0, state := .asleep }
  | .off, _ => { Spu.noEpisode w with lidConfirm := none, advised := 0, pending := 0, state := .off }

/-- The WAKE_REPORT of a HOST_STATE, from SPU's record before it (R146, R158). -/
def wakeReport (v : HostView) (u : Spu) : Option Event :=
  match v, u.state with
  | .running, .asleep => some (.wakeReport 0 0)
  | .running, .waking => some (.wakeReport u.causes u.attempt)
  | .suspending, .waking => some (.wakeReport u.causes u.attempt)
  | _, _ => none

/-- The SLEEP_ADVICE of an entry into AWAKE: one event with the whole set (R151). -/
def wakeAdvice (v : HostView) (old new : Spu) : Option Event :=
  match v, old.state with
  | .running, .awake | .running, .advised => none
  | .running, _ => if new.advised = 0 then none else some (.sleepAdvice new.advised new.advised)
  | _, _ => none

/-- An event is offered if there is one. -/
def offerIf (e : Option Event) (s : State) : State :=
  match e with
  | some e => offer e s
  | none => s

/-- SPU takes a valid HOST_STATE: its state moves, the reply goes first, then the events, and the part mode is chosen for
the state that SPU has come to (R145, R151, R158, R159). -/
def takeHostState (place : Nat) (v : HostView) (s : State) : State :=
  let old := s.spu
  let new := old.hostMoved s.now s.settings.sleep v
  let s := answer place (Reply.ok (.host new.host new.state)) { s with spu := new }
  chooseMode (offerIf (wakeAdvice v old new) (offerIf (wakeReport v old) s))

/-- HOST_STATE (R145). -/
def serveHostState (place : Nat) (payload : List Byte) (s : State) : State :=
  match hostViewOf (u8 payload 0) with
  | none => answer place (Reply.code .badValue) s
  | some v => takeHostState place v s

/-! ## GET_SLEEP, SET_SLEEP_POLICY, SET_WAKE_CAUSES -/

/-- The GET_SLEEP reply (R161). -/
def sleepRecord (settings : Settings) (u : Spu) : SleepRecord :=
  { host := u.host, state := u.state, mode := u.mode, advised := u.advised
    lidHolds := u.lid.holds, lidMatured := u.lid.matured
    faceDownHolds := u.faceDown.holds, faceDownMatured := u.faceDown.matured
    supplyHolds := u.supply.holds, supplyMatured := u.supply.matured
    pending := u.pending, causes := u.causes
    attempt := if u.state = .waking then some u.attempt else none, limit := u.limit, hwake := u.hwake
    policy := settings.sleep, wake := settings.wake }

/-- GET_SLEEP (R161). -/
def serveGetSleep (place : Nat) (s : State) : State :=
  answer place (Reply.ok (.sleep (sleepRecord s.settings s.spu))) s

/-- A trigger whose enable has changed is evaluated (R162). -/
def reEnable (old : SleepPolicy) (t : Trigger) (s : State) : State :=
  if triggerEnable t old = triggerEnable t s.settings.sleep then s else evalTrigger t s

/-- Has the enable of a trigger changed. -/
def enableTurns (old new : SleepPolicy) (t : Trigger) : Bool := decide (triggerEnable t old ≠ triggerEnable t new)

/-- The sleep policy is replaced, with its effects (R162). The manual does not order the triggers that change. -/
def replaceSleep (p : SleepPolicy) (s : State) : State :=
  let old := s.settings.sleep
  let s := { s with settings := { s.settings with sleep := p } }
  let l := enableTurns old p .lid
  let f := enableTurns old p .faceDown
  let u := enableTurns old p .supply
  chooseMode
    (if (l && f) || (l && u) || (f && u) then
      anyOrder (reEnable old .lid) (reEnable old .faceDown) (reEnable old .supply) s
    else reEnable old .supply (reEnable old .faceDown (reEnable old .lid s)))

/-- SET_SLEEP_POLICY (R162). -/
def serveSetSleepPolicy (place : Nat) (payload : List Byte) (s : State) : State :=
  match readSleep (sleepOfPayload payload) with
  | none => answer place (Reply.code .badValue) s
  | some asked =>
    let p := clampSleep asked
    raceLc (answer place (Reply.clamped (decide (p ≠ asked)) (.sleepPolicy p))) (replaceSleep p) s

/-- The wake-cause table is replaced, and the part mode is chosen again (R163). -/
def replaceWake (t : WakeTable) (s : State) : State :=
  chooseMode { s with settings := { s.settings with wake := t } }

/-- SET_WAKE_CAUSES (R163). -/
def serveSetWakeCauses (place : Nat) (payload : List Byte) (s : State) : State :=
  match readWake (wakeOfPayload payload) with
  | none => answer place (Reply.code .badValue) s
  | some t => raceLc (answer place (Reply.ok (.wakeTable t))) (replaceWake t) s

end Sys2Proof.Machine
end

