-- ==== Sys2Proof/Machine/Conditions.lean ====
section
/-! DEFINITION. The requests that CM answers (R167, R172, R174), uptime (R175), and RESTORE_DEFAULTS (R198). -/

namespace Sys2Proof.Machine

/-- The codes of a set that are conditions: bits 14 and 15 name none (R193). -/
def codesOk (n : Nat) : Bool := decide (n < 16384)

/-- The latched flags of the codes named that may be cleared: those whose live flag is clear (R167). An occurrence
condition has no live flag, so its bit of `live` is never set. -/
def clearable (asked live : BitVec 14) : BitVec 14 := asked &&& ~~~ live

/-- CM's records after CLEAR_CONDITIONS (R167). -/
def Cm.clear (asked : BitVec 14) (history : Bool) (cm : Cm) : Cm :=
  { cm with
    latched := cm.latched &&& ~~~ clearable asked cm.live, ring := if history = true then [] else cm.ring }

/-- CLEAR_CONDITIONS (R167). -/
def serveClearConditions (place : Nat) (payload : List Byte) (s : State) : State :=
  match codesOk (u16 payload 0), onOffOf (u8 payload 2) with
  | true, some history =>
    let asked := BitVec.ofNat 14 (u16 payload 0)
    let cm := s.cm.clear asked history
    answer place (Reply.ok (.cleared (asked &&& s.cm.live) cm.latched)) { s with cm := cm }
  | _, _ => answer place (Reply.code .badValue) s

/-- The GET_CONDITIONS reply (R174). -/
def conditionsRecord (cm : Cm) : ConditionsRecord :=
  { live := cm.live, latched := cm.latched, count := cm.ring.length, next := cm.next, cause := cm.cause, uptime := cm.uptime }

/-- GET_CONDITIONS (R174). -/
def serveGetConditions (place : Nat) (s : State) : State :=
  answer place (Reply.ok (.conditions (conditionsRecord s.cm))) s

/-- The records that GET_HISTORY carries: newest first from the start position, up to 5 (R172). -/
def historyFrom (start : Nat) (ring : List HistoryRecord) : List HistoryRecord := (ring.reverse.drop start).take 5

/-- GET_HISTORY (R172). -/
def serveGetHistory (place : Nat) (payload : List Byte) (s : State) : State :=
  let start := u8 payload 0
  answer place (Reply.ok (.history s.cm.ring.length start (historyFrom start s.cm.ring))) s

/-- A whole second has passed (R175). -/
def tickUptime (s : State) : State :=
  { s with nextSecond := s.nextSecond + 1000, cm := { s.cm with uptime := s.cm.uptime + 1 } }

/-! ## RESTORE_DEFAULTS (R198) -/

/-- The sleep policy and the wake-cause table take their defaults. -/
def restoreSleep (s : State) : State := replaceWake defaultWake (replaceSleep defaultSleep s)

/-- The three owners whose replacement has effects beyond its own record act independently of one another (R198). -/
def restoreOwners (s : State) : State :=
  let t := decide (s.settings.tuning ≠ defaultTuning)
  let sl := decide (s.settings.sleep ≠ defaultSleep) || decide (s.settings.wake ≠ defaultWake)
  let p := decide (s.settings.pen ≠ defaultPen)
  if (t && sl) || (t && p) || (sl && p) then
    anyOrder (replaceTuning defaultTuning) restoreSleep (replacePen defaultPen) s
  else replacePen defaultPen (restoreSleep (replaceTuning defaultTuning s))

/-- The detach policy and the acceptance policy take their defaults (R79, R99). -/
def restorePolicies (s : State) : State :=
  { s with settings := { s.settings with detach := defaultDetach, basePolicy := .accept } }

/-- RESTORE_DEFAULTS (R198). -/
def serveRestoreDefaults (place : Nat) (s : State) : State :=
  answer place (Reply.ok .none) (requestCommit (restorePolicies (restoreOwners s)))

end Sys2Proof.Machine
end

