-- ==== Sys2Proof/Machine/Reset.lean ====
section
/-! DEFINITION. Resets (R20, R59, R80, R81, R100, R118, R119, R144, R164, R176, R177, R192, R194, R196). -/

namespace Sys2Proof.Machine

/-- CM after a reset: a reset during which VDD fell loses its memory, PIN and SOFT keep it (R177). -/
def resetCm (kind : ResetKind) (cm : Cm) : Cm :=
  match kind with
  | .powerOn | .brownout => { Cm.reset with cause := kind }
  | .pin | .soft =>
    { cm with
      live := 0, ring := cm.ring.map fun r => { r with earlier := true }, cause := kind, uptime := 0 }

/-- A magnet record at reset values over a raw level (R20). -/
def magnetAt (raw : Level) : MagnetRec := { MagnetRec.released with raw := raw }

/-- Every block at its reset values, over what a reset keeps: the nonvolatile image, CM's memory, the raw levels of the
inputs, and the model's own counter and queue. -/
def blank (s : State) : State :=
  { State.reset with
    nrst := s.nrst, settings := s.settings
    sfe := { Sfe.reset with lid := magnetAt s.sfe.lid.raw, fold := magnetAt s.sfe.fold.raw }
    pe := Pe.initial
    bm := { Bm.reset with bpres := s.bm.bpres }
    det := { Det.reset with dbtn := s.det.dbtn, button := s.det.dbtn, lsw := s.det.lsw }
    pdc := { Pdc.reset with pdet := s.pdc.pdet }
    spu := Spu.initial, cm := s.cm, ss := Ss.ofImage s.ss.image, choices := s.choices, pending := s.pending }

/-- A magnet input at the end of a reset: asserted, it starts its hold under the loaded Hall debounce time (R20). -/
def magnetStart (hall : Nat) (raw : Level) : MagnetRec :=
  match raw with
  | .asserted => { MagnetRec.released with raw := .asserted, debounce := .changing, hold := hall, timer := some hall }
  | .released => { MagnetRec.released with hold := hall }

/-- BM takes the BPRES level at the end of a reset (R80). -/
def bmStart (bpres : Level) : Bm :=
  match bpres with
  | .asserted => { Bm.reset with bpres := .asserted, state := .settling, settle := some 100 }
  | .released => Bm.reset

/-- PDC takes the loaded pen settings and the PDET level at the end of a reset (R144). -/
def pdcStart (pen : PenSettings) (pdet : Level) : Pdc :=
  let p :=
    { Pdc.reset with limitMin := pen.safety, reasons := withReason .host (decide (pen.enable = .disabled)) 0 }
  match pdet with
  | .asserted => { p with pdet := .asserted, state := .settling, settle := some 200 }
  | .released => p

/-- The blocks start: PE's first re-evaluation of forcing (R59), and the report of a rejected image (R194). The manual does
not order the two. -/
def startBlocks (corrupt : Option Nat) (s : State) : State :=
  match corrupt with
  | none => peForcing s
  | some detail => eitherOrder (rise .storeCorrupt detail) peForcing s

/-- A reset ends: the working settings are loaded and every block starts from its reset values (R194). -/
def endReset (kind : ResetKind) (s : State) : State :=
  let load := loadImage s.ss.image
  let b := blank s
  startBlocks load.2
    { b with
      settings := load.1, held := none, cm := resetCm kind s.cm
      sfe := { b.sfe with
        lid := magnetStart load.1.tuning.hall s.sfe.lid.raw, fold := magnetStart load.1.tuning.hall s.sfe.fold.raw }
      bm := bmStart s.bm.bpres, pdc := pdcStart load.1.pen s.pdc.pdet }

/-- The kind under which a reset is recorded when a cause meets a reset that is held (R176): the last fall of VDD names it,
whatever began it; where VDD has held, NRST does. -/
def outranks (a : ResetKind) (held : Option ResetKind) : ResetKind :=
  match a, held with
  | .powerOn, _ => .powerOn
  | .brownout, _ => .brownout
  | .pin, some .powerOn => .powerOn
  | .pin, some .brownout => .brownout
  | .pin, _ => .pin
  | .soft, k => k.getD .soft

/-- A reset that is held: the blocks stand at their reset values until it ends (R176). -/
def holdReset (kind : ResetKind) (s : State) : State := { blank s with held := some (outranks kind s.held) }

/-- A reset of a kind begins; it ends at once unless NRST is held (R176). -/
def beginReset (kind : ResetKind) (s : State) : State :=
  if s.nrst = .asserted then holdReset kind s else endReset kind s

/-- A SOFT reset begins (R176, R191). DESIGN CHOICE (notes/assumptions/15.md): the manual gives it no length, so it has
ended when the next command comes, or it still stands then; which, is a free order. -/
def softReset (s : State) : State :=
  if s.nrst = .asserted then holdReset .soft s
  else if Config.firstTaken s.choices = true then endReset .soft s.nextChoice
  else holdReset .soft s.nextChoice

/-- NRST is asserted (R176): a SOFT reset that still stands is extended by it, or has ended just before. -/
def assertReset (s : State) : State :=
  match s.nrst, s.held with
  | .asserted, _ => s
  | .released, none => holdReset .pin { s with nrst := .asserted }
  | .released, some kind =>
    if Config.firstTaken s.choices = true then holdReset .pin { s.nextChoice with nrst := .asserted }
    else holdReset .pin { endReset kind s.nextChoice with nrst := .asserted }

/-- NRST is released: the reset that it held ends (R176, R194). -/
def releaseReset (s : State) : State :=
  match s.nrst, s.held with
  | .asserted, some kind => endReset kind { s with nrst := .released }
  | _, _ => { s with nrst := .released }

/-! ## Commands that are no reset cause -/

/-- A command or a millisecond that the part takes only while it runs: nothing happens in a reset that NRST holds (R176), and
a SOFT reset that still stands ends first. -/
def whileRunning (f : State → State) (s : State) : State :=
  match s.held, s.nrst with
  | none, _ => f s
  | some _, .asserted => s
  | some kind, .released => f (endReset kind s)

/-- An input pin changes: in a reset only its raw level is seen (R176), else `f` takes the change. Whether it falls before
or after the end of a SOFT reset that still stands is free. -/
def onInput (record f : State → State) (s : State) : State :=
  match s.held, s.nrst with
  | none, _ => f s
  | some _, .asserted => record s
  | some kind, .released =>
    if Config.firstTaken s.choices = true then record s.nextChoice else f (endReset kind s.nextChoice)

end Sys2Proof.Machine
end

