-- ==== Sys2Proof/Machine/Link.lean ====
section
/-! DEFINITION. The Link Controller (Chapter 10): the receive assembler (R178, R179), the judgement and acceptance of good
frames (R180, R181), the requests LC answers itself (R185, R186, R191), and the end of a transmitted frame (R183). -/

namespace Sys2Proof.Machine

/-! ## Requests that LC answers -/

/-- The part code (R191). -/
def partCode : Nat := 4610

/-- The major protocol revision of the part (R185, R191). -/
def partMajor : Nat := 2

/-- The minor protocol revision of the part (R185, R191). -/
def partMinor : Nat := 3

/-- IDENTIFY (R191). -/
def serveIdentify (place : Nat) (s : State) : State :=
  answer place (Reply.ok (.identity partCode partMajor partMinor s.lc.grant s.cm.cause s.cm.uptime)) s

/-- SUBSCRIBE (R185): all eight classes are supported. -/
def serveSubscribe (place : Nat) (payload : List Byte) (s : State) : State :=
  if u8 payload 0 = partMajor then
    let grant : BitVec 8 := BitVec.ofNat 8 (u8 payload 2)
    answer place (Reply.ok (.subscription grant)) { s with lc := { s.lc with grant := grant } }
  else
    answer place { result := .version, content := .subscription 0 } { s with lc := { s.lc with grant := 0 } }

/-- UNSUBSCRIBE (R186). -/
def serveUnsubscribe (place : Nat) (payload : List Byte) (s : State) : State :=
  match onOffOf (u8 payload 0) with
  | none => answer place (Reply.code .badValue) s
  | some false => answer place (Reply.ok .none) { s with lc := { s.lc with grant := 0 } }
  | some true =>
    answer place (Reply.ok .none) { s with lc := { s.lc with grant := 0, queue := [], lost := false } }

/-- RESET_PART: the reset gate closes (R191). -/
def serveResetPart (place : Nat) (s : State) : State :=
  answer place (Reply.ok .none) { s with lc := { s.lc with gateClosed := true } }

/-! ## Owners take their requests (10.7, R181) -/

/-- The owner of a request takes it under its own rule. -/
def serve (place : Nat) (kind : ReqKind) (payload : List Byte) (s : State) : State :=
  match kind with
  | .identify => serveIdentify place s
  | .subscribe => serveSubscribe place payload s
  | .unsubscribe => serveUnsubscribe place payload s
  | .resetPart => serveResetPart place s
  | .getPosture => serveGetPosture place s
  | .getVectors => serveGetVectors place s
  | .setRotationLock => serveSetRotationLock place payload s
  | .setTuning => serveSetTuning place payload s
  | .calibrateHinge => serveCalibrateHinge place payload s
  | .listBases => serveListBases place s
  | .forgetBase => serveForgetBase place payload s
  | .setBaseOffset => serveSetBaseOffset place payload s
  | .acceptBase => serveAcceptBase place s
  | .setBasePolicy => serveSetBasePolicy place payload s
  | .requestDetach => serveRequestDetach place s
  | .detachConsent => serveDetachConsent place payload s
  | .setDetachPolicy => serveSetDetachPolicy place payload s
  | .getSupply => serveGetSupply place s
  | .getPen => serveGetPen place s
  | .setPenCharging => serveSetPenCharging place payload s
  | .hostState => serveHostState place payload s
  | .getSleep => serveGetSleep place s
  | .setSleepPolicy => serveSetSleepPolicy place payload s
  | .setWakeCauses => serveSetWakeCauses place payload s
  | .getConditions => serveGetConditions place s
  | .getHistory => serveGetHistory place payload s
  | .clearConditions => serveClearConditions place payload s
  | .saveSettings => serveSaveSettings place s
  | .restoreDefaults => serveRestoreDefaults place s

/-- Is a slot in phase WAITING. -/
def Slot.waits (sl : Slot) : Bool := decide (sl.phase = .waiting)

/-- Is an event frame being sent. -/
def sendingEvent (lc : Lc) : Bool := (lc.tx.map TxFrame.isEvent).getD false

/-- May LC hand a request of this kind, with these slots accepted before it (R181). -/
def mayHand (kind : ReqKind) (earlier : List Slot) (lc : Lc) : Bool :=
  !lc.gateClosed && !(decide (kind = .hostState) && sendingEvent lc) &&
  earlier.all fun sl => !(sl.waits && decide (kindOwner sl.kind = kindOwner kind))

/-- LC hands the request in a slot to its owner: TAKEN (R181). -/
def hand (sl : Slot) (s : State) : State :=
  serve sl.place sl.kind sl.payload { s with lc := { s.lc with slots := setPhase sl.place .taken s.lc.slots } }

/-- The first WAITING request that may be handed, in the order of acceptance. -/
def nextToHand (lc : Lc) : List Slot → List Slot → Option Slot
  | _, [] => none
  | earlier, sl :: rest =>
    if (sl.waits && mayHand sl.kind earlier lc) = true then some sl else nextToHand lc (earlier ++ [sl]) rest

/-- LC hands the requests that may be handed, at most `n` of them. -/
def handWaiting : Nat → State → State
  | 0, s => s
  | n + 1, s =>
    match nextToHand s.lc [] s.lc.slots with
    | some sl => handWaiting n (hand sl s)
    | none => s

/-! ## Acceptance (R180, R181) -/

/-- The least free place of the four slots (R180, R181). DESIGN CHOICE (notes/assumptions/35.md): the manual does not say
which of several free slots a request takes. -/
def freePlace (slots : List Slot) : Nat := ((List.range 4).find? fun k => slots.all fun sl => sl.place != k).getD 0

/-- The slot of a newly accepted request (R181). -/
def newSlot (kind : ReqKind) (tag : Byte) (payload : List Byte) (lc : Lc) : Slot :=
  { place := freePlace lc.slots, kind := kind, tag := tag, payload := payload, phase := .waiting }

/-- A request is accepted into a free slot, and handed at once unless one of the three cases of R181 holds it back. -/
def accept (kind : ReqKind) (tag : Byte) (payload : List Byte) (s : State) : State :=
  let sl := newSlot kind tag payload s.lc
  let t := { s with lc := { s.lc with slots := s.lc.slots ++ [sl] } }
  if mayHand kind s.lc.slots s.lc = true then hand sl t else t

/-- A good frame ends its assembly and is judged (R179, R180). -/
def goodFrame (kind : Nat) (tag : Byte) (payload : List Byte) (s : State) : State :=
  let s := { s with lc := { s.lc with asm := Asm.hunt } }
  match kindOf kind with
  | none => refuse (.unknownKind (BitVec.ofNat 8 kind) tag) s
  | some k =>
    if payload.length ≠ payloadLength k then refuse (.badLength k tag) s
    else if 4 ≤ s.lc.slots.length then refuse (.busy k tag) s
    else accept k tag payload s

/-- A good request frame of a kind: what every request command is (R179 to R181). -/
def request (kind : ReqKind) (tag : Byte) (payload : List Byte) (s : State) : State :=
  goodFrame (kindCode kind) tag payload s

/-! ## The receive assembler (R178, R179) -/

/-- A damaged frame ends its assembly with a FRAME_REJECT notice (R179). -/
def badFrame (s : State) : State := refuse .frameReject { s with lc := { s.lc with asm := Asm.hunt } }

/-- The gap timer is due at the first whole millisecond at which more than 5 ms have passed since the byte (R178).
DEDUCED (notes/assumptions/13.md): the timebase counts whole milliseconds. -/
def gapMs : Nat := 6

/-- A byte in HUNT (R178). -/
def Asm.huntByte (now : Nat) (b : Byte) : Asm :=
  if b = 0xC3#8 then { Asm.hunt with state := .length, gap := some (now + gapMs) } else Asm.hunt

/-- Is the byte a body length (R178). -/
def isLength (b : Byte) : Bool := decide (2 ≤ b.toNat) && decide (b.toNat ≤ 126)

/-- A byte in LENGTH (R178): one that is no body length is examined again in HUNT. -/
def Asm.lengthByte (now : Nat) (b : Byte) : Asm :=
  if isLength b = true then
    { state := .body, expected := b.toNat, body := [], sum := b.toNat, gap := some (now + gapMs) }
  else Asm.huntByte now b

/-- A byte in BODY (R178). -/
def Asm.bodyByte (now : Nat) (b : Byte) (a : Asm) : Asm :=
  { a with
    body := a.body ++ [b], sum := a.sum + b.toNat, gap := some (now + gapMs)
    state := if a.expected ≤ a.body.length + 1 then .check else .body }

/-- A body judged good: KIND, TAG and payload (10.1). -/
def bodyFrame (body : List Byte) (s : State) : State :=
  match body with
  | kind :: tag :: payload => goodFrame kind.toNat tag payload s
  | _ => badFrame s

/-- A byte from RXD (R178, R179). -/
def rxByte (b : Byte) (s : State) : State :=
  match s.lc.asm.state with
  | .hunt => { s with lc := { s.lc with asm := Asm.huntByte s.now b } }
  | .length => { s with lc := { s.lc with asm := Asm.lengthByte s.now b } }
  | .body => { s with lc := { s.lc with asm := s.lc.asm.bodyByte s.now b } }
  | .check => if b = checkByte s.lc.asm.sum then bodyFrame s.lc.asm.body s else badFrame s

/-- A byte outside 2..126 arrives as LEN (R178). -/
def lengthAbandon (b : Byte) (s : State) : State :=
  if s.lc.asm.state = .length ∧ isLength b = false then
    { s with lc := { s.lc with asm := Asm.huntByte s.now b } }
  else s

/-- The gap timer has run out: the frame is abandoned (R178). -/
def gapExpired (s : State) : State := { s with lc := { s.lc with asm := Asm.hunt } }

/-! ## The end of a transmitted frame (R181 to R183, R191) -/

/-- The slot whose reply has left is free (R181). -/
def freeSent (lc : Lc) : Lc := { lc with slots := lc.slots.filter fun sl => sl.phase != .sending, tx := none }

/-- LC after the last byte of a frame: waiting requests that may now be handed are handed, and the transmitter chooses
(R181, R183). -/
def afterFrame (s : State) : State := kick (handWaiting 4 s)

/-- The last byte of the frame being sent leaves TXD (R183); after the reply to RESET_PART a SOFT reset begins (R176,
R191). -/
def frameSent (s : State) : State :=
  match s.lc.tx with
  | none => s
  | some (.reply kind _ _) =>
    let s := { s with lc := freeSent s.lc }
    if kind = .resetPart then softReset s else afterFrame s
  | some (.refusal _) => afterFrame { s with lc := { s.lc with refusal := none, tx := none } }
  | some (.event _ _) => afterFrame { s with lc := { s.lc with tx := none } }

end Sys2Proof.Machine
end

