-- ==== Sys2Proof/Machine/CmdBase.lean ====
section
/-! DEFINITION. The meanings of the base connector and base link commands (Chapter 4). -/

namespace Sys2Proof.Machine

/-- BPRES_CHANGE (R60, R61, R80). -/
def execBpresChange (level : Level) (s : State) : Host.Outcome State Fault Refusal :=
  .next (onInput (fun s => { s with bm := { s.bm with bpres := level } }) (bpresChanged level) s)

/-- BASE_SETTLE_TIMER_EXPIRY (R60, R62). -/
def execBaseSettleTimerExpiry (s : State) : Host.Outcome State Fault Refusal :=
  .next (whileRunning (fun s => onExpiry (whenIn (decide (s.bm.state = .settling)) s.bm.settle) baseSettled s) s)

/-- BASE_GONE: the loss timer expires (R61, R73, R95). -/
def execBaseGone (s : State) : Host.Outcome State Fault Refusal :=
  .next (whileRunning (fun s => onExpiry s.bm.loss (fun s => baseIsGone { s with bm := { s.bm with loss := none } }) s) s)

/-- QUERY_TIMER_EXPIRY (R64, R65). -/
def execQueryTimerExpiry (s : State) : Host.Outcome State Fault Refusal :=
  .next (whileRunning (fun s => onExpiry (whenIn (decide (s.bm.state = .identifying)) s.bm.query) queryExpired s) s)

/-- CYCLING_TIMER_EXPIRY (R64). -/
def execCyclingTimerExpiry (s : State) : Host.Outcome State Fault Refusal :=
  .next (whileRunning (fun s => onExpiry (whenIn (decide (s.bm.state = .identifying)) s.bm.cycling) cyclingExpired s) s)

/-- IDENT (R63, R66 to R70). -/
def execIdent (serial : Serial) (model : BitVec 16) (draw revision : Nat) (s : State) : Host.Outcome State Fault Refusal :=
  .next (whileRunning (takeIdent ⟨serial, model, draw, revision⟩) s)

/-- QUIESCED (R63, R71). -/
def execQuiesced (s : State) : Host.Outcome State Fault Refusal :=
  .next (whileRunning streamPaused s)

/-- QUIESCE_TIMER_EXPIRY (R71). -/
def execQuiesceTimerExpiry (s : State) : Host.Outcome State Fault Refusal :=
  .next (whileRunning (fun s => onExpiry s.bm.quiesce streamPaused s) s)

/-- BASE_LINK_RECORD_DISCARD: the record has no effect (R63). -/
def execBaseLinkRecordDiscard (s : State) : Host.Outcome State Fault Refusal :=
  .next (s)

end Sys2Proof.Machine
end

