-- ==== Sys2Proof/Machine/CmdDetach.lean ====
section
/-! DEFINITION. The meanings of the detach button, latch and deadline commands (Chapter 5). -/

namespace Sys2Proof.Machine

/-- DBTN_CHANGE (R81). -/
def execDbtnChange (level : Level) (s : State) : Host.Outcome State Fault Refusal :=
  .next (onInput (fun s => { s with det := { s.det with dbtn := level, button := level } }) (dbtnChanged level) s)

/-- BUTTON_HOLD_EXPIRY (R81 to R84, R87, R92). -/
def execButtonHoldExpiry (s : State) : Host.Outcome State Fault Refusal :=
  .next (whileRunning (fun s => onExpiry s.det.hold buttonHeld s) s)

/-- CONSENT_TIMER_EXPIRY (R86). -/
def execConsentTimerExpiry (s : State) : Host.Outcome State Fault Refusal :=
  .next (whileRunning (fun s => onExpiry (deadlineTimer .consent s) consentExpired s) s)

/-- GRANT_WAIT_EXPIRY (R89). -/
def execGrantWaitExpiry (s : State) : Host.Outcome State Fault Refusal :=
  .next (whileRunning (fun s => onExpiry (deadlineTimer .grantWait s) (giveUpLatch .noPower) s) s)

/-- LSW_CHANGE (R90, R94). -/
def execLswChange (pos : LatchPos) (s : State) : Host.Outcome State Fault Refusal :=
  .next (onInput (fun s => { s with det := { s.det with lsw := pos } }) (lswChanged pos) s)

/-- OPEN_CHECK_EXPIRY (R90). -/
def execOpenCheckExpiry (s : State) : Host.Outcome State Fault Refusal :=
  .next (whileRunning (fun s => onExpiry (deadlineTimer .openCheck s) openCheckFailed s) s)

/-- RELEASE_WINDOW_EXPIRY (R91). -/
def execReleaseWindowExpiry (s : State) : Host.Outcome State Fault Refusal :=
  .next (whileRunning (fun s => onExpiry (deadlineTimer .window s) (toClosing .timedOut) s) s)

/-- CLOSE_CHECK_EXPIRY (R94). -/
def execCloseCheckExpiry (s : State) : Host.Outcome State Fault Refusal :=
  .next (whileRunning (fun s => onExpiry (deadlineTimer .closeCheck s) closeCheckFailed s) s)

/-- BLINK_TIMER_EXPIRY (R82). -/
def execBlinkTimerExpiry (s : State) : Host.Outcome State Fault Refusal :=
  .next (whileRunning (fun s => onExpiry s.det.blink blinkEnded s) s)

end Sys2Proof.Machine
end

