-- ==== Sys2Proof/Machine/CmdLink.lean ====
section
/-! DEFINITION. The meanings of the receive and transmit commands (Chapter 10). -/

namespace Sys2Proof.Machine

/-- RXD_BYTE (R178, R179). -/
def execRxdByte (byte : Byte) (s : State) : Host.Outcome State Fault Refusal :=
  .next (whileRunning (rxByte byte) s)

/-- LENGTH_BYTE_ABANDON (R178). -/
def execLengthByteAbandon (byte : Byte) (s : State) : Host.Outcome State Fault Refusal :=
  .next (whileRunning (lengthAbandon byte) s)

/-- RX_GAP_TIMEOUT (R178). -/
def execRxGapTimeout (s : State) : Host.Outcome State Fault Refusal :=
  .next (whileRunning (fun s => onExpiry s.lc.asm.gap gapExpired s) s)

/-- FRAME_REJECT (R179, R182). -/
def execFrameReject (s : State) : Host.Outcome State Fault Refusal :=
  .next (whileRunning badFrame s)

/-- UNKNOWN_KIND_FRAME (R180, R182). -/
def execUnknownKindFrame (kind tag : Byte) (payload : List Byte) (s : State) : Host.Outcome State Fault Refusal :=
  .next (whileRunning (goodFrame kind.toNat tag payload) s)

/-- TX_FRAME_DONE (R181, R183, R191). -/
def execTxFrameDone (s : State) : Host.Outcome State Fault Refusal :=
  .next (whileRunning frameSent s)

end Sys2Proof.Machine
end

