-- ==== Sys2Proof/Machine/CmdPen.lean ====
section
/-! DEFINITION. The meanings of the pen garage and pen line commands (Chapter 7). -/

namespace Sys2Proof.Machine

/-- PDET_CHANGE (R120, R121, R144). -/
def execPdetChange (level : Level) (s : State) : Host.Outcome State Fault Refusal :=
  .next (onInput (fun s => { s with pdc := { s.pdc with pdet := level } }) (pdetChanged level) s)

/-- PEN_SETTLE_TIMER_EXPIRY (R120). -/
def execPenSettleTimerExpiry (s : State) : Host.Outcome State Fault Refusal :=
  .next (whileRunning (fun s => onExpiry (whenIn (decide (s.pdc.state = .settling)) s.pdc.settle) penSettled s) s)

/-- PEN_REMOVAL: the removal timer expires (R121, R122). -/
def execPenRemoval (s : State) : Host.Outcome State Fault Refusal :=
  .next (whileRunning (fun s => onExpiry s.pdc.removal penRemoved s) s)

/-- POLL_TIMER_EXPIRY (R123). -/
def execPollTimerExpiry (s : State) : Host.Outcome State Fault Refusal :=
  .next (whileRunning (fun s => onExpiry s.pdc.poll startPoll s) s)

/-- RESPONSE_TIMER_EXPIRY (R125). -/
def execResponseTimerExpiry (s : State) : Host.Outcome State Fault Refusal :=
  .next (whileRunning (fun s => onExpiry s.pdc.response pollUnanswered s) s)

/-- PEN_STATUS (R124, R126). -/
def execPenStatus (intact : Bool) (status : PenStatus) (s : State) : Host.Outcome State Fault Refusal :=
  .next (whileRunning (penStatusArrived intact status) s)

/-- PRECHARGE_TIMER_EXPIRY (R138). -/
def execPrechargeTimerExpiry (s : State) : Host.Outcome State Fault Refusal :=
  .next (whileRunning prechargeExpired s)

/-- SAFETY_TIMER_EXPIRY (R138). -/
def execSafetyTimerExpiry (s : State) : Host.Outcome State Fault Refusal :=
  .next (whileRunning safetyExpired s)

end Sys2Proof.Machine
end

