-- ==== Sys2Proof/Machine/CmdRequests.lean ====
section
/-! DEFINITION. The meanings of the 29 request commands: a good frame of the kind arrives, and is refused or accepted and
handed to its owner (R179 to R181). -/

namespace Sys2Proof.Machine

/-- IDENTIFY: owner's rule R191. -/
def execIdentify (tag : Byte) (payload : List Byte) (s : State) : Host.Outcome State Fault Refusal :=
  .next (whileRunning (request .identify tag payload) s)

/-- SUBSCRIBE: owner's rule R185. -/
def execSubscribe (tag : Byte) (payload : List Byte) (s : State) : Host.Outcome State Fault Refusal :=
  .next (whileRunning (request .subscribe tag payload) s)

/-- UNSUBSCRIBE: owner's rule R186. -/
def execUnsubscribe (tag : Byte) (payload : List Byte) (s : State) : Host.Outcome State Fault Refusal :=
  .next (whileRunning (request .unsubscribe tag payload) s)

/-- RESET_PART: owner's rule R191. -/
def execResetPart (tag : Byte) (payload : List Byte) (s : State) : Host.Outcome State Fault Refusal :=
  .next (whileRunning (request .resetPart tag payload) s)

/-- GET_POSTURE: owner's rule R56. -/
def execGetPosture (tag : Byte) (payload : List Byte) (s : State) : Host.Outcome State Fault Refusal :=
  .next (whileRunning (request .getPosture tag payload) s)

/-- GET_VECTORS: owner's rule R16. -/
def execGetVectors (tag : Byte) (payload : List Byte) (s : State) : Host.Outcome State Fault Refusal :=
  .next (whileRunning (request .getVectors tag payload) s)

/-- SET_ROTATION_LOCK: owner's rule R53. -/
def execSetRotationLock (tag : Byte) (payload : List Byte) (s : State) : Host.Outcome State Fault Refusal :=
  .next (whileRunning (request .setRotationLock tag payload) s)

/-- SET_TUNING: owner's rule R19, R33, R58. -/
def execSetTuning (tag : Byte) (payload : List Byte) (s : State) : Host.Outcome State Fault Refusal :=
  .next (whileRunning (request .setTuning tag payload) s)

/-- CALIBRATE_HINGE: owner's rule R78. -/
def execCalibrateHinge (tag : Byte) (payload : List Byte) (s : State) : Host.Outcome State Fault Refusal :=
  .next (whileRunning (request .calibrateHinge tag payload) s)

/-- LIST_BASES: owner's rule R75, R98. -/
def execListBases (tag : Byte) (payload : List Byte) (s : State) : Host.Outcome State Fault Refusal :=
  .next (whileRunning (request .listBases tag payload) s)

/-- FORGET_BASE: owner's rule R76. -/
def execForgetBase (tag : Byte) (payload : List Byte) (s : State) : Host.Outcome State Fault Refusal :=
  .next (whileRunning (request .forgetBase tag payload) s)

/-- SET_BASE_OFFSET: owner's rule R77. -/
def execSetBaseOffset (tag : Byte) (payload : List Byte) (s : State) : Host.Outcome State Fault Refusal :=
  .next (whileRunning (request .setBaseOffset tag payload) s)

/-- ACCEPT_BASE: owner's rule R70. -/
def execAcceptBase (tag : Byte) (payload : List Byte) (s : State) : Host.Outcome State Fault Refusal :=
  .next (whileRunning (request .acceptBase tag payload) s)

/-- SET_BASE_POLICY: owner's rule R79. -/
def execSetBasePolicy (tag : Byte) (payload : List Byte) (s : State) : Host.Outcome State Fault Refusal :=
  .next (whileRunning (request .setBasePolicy tag payload) s)

/-- REQUEST_DETACH: owner's rule R88. -/
def execRequestDetach (tag : Byte) (payload : List Byte) (s : State) : Host.Outcome State Fault Refusal :=
  .next (whileRunning (request .requestDetach tag payload) s)

/-- DETACH_CONSENT: owner's rule R85. -/
def execDetachConsent (tag : Byte) (payload : List Byte) (s : State) : Host.Outcome State Fault Refusal :=
  .next (whileRunning (request .detachConsent tag payload) s)

/-- SET_DETACH_POLICY: owner's rule R99. -/
def execSetDetachPolicy (tag : Byte) (payload : List Byte) (s : State) : Host.Outcome State Fault Refusal :=
  .next (whileRunning (request .setDetachPolicy tag payload) s)

/-- GET_SUPPLY: owner's rule R110. -/
def execGetSupply (tag : Byte) (payload : List Byte) (s : State) : Host.Outcome State Fault Refusal :=
  .next (whileRunning (request .getSupply tag payload) s)

/-- GET_PEN: owner's rule R140. -/
def execGetPen (tag : Byte) (payload : List Byte) (s : State) : Host.Outcome State Fault Refusal :=
  .next (whileRunning (request .getPen tag payload) s)

/-- SET_PEN_CHARGING: owner's rule R143. -/
def execSetPenCharging (tag : Byte) (payload : List Byte) (s : State) : Host.Outcome State Fault Refusal :=
  .next (whileRunning (request .setPenCharging tag payload) s)

/-- HOST_STATE: owner's rule R145, R146. -/
def execHostState (tag : Byte) (payload : List Byte) (s : State) : Host.Outcome State Fault Refusal :=
  .next (whileRunning (request .hostState tag payload) s)

/-- GET_SLEEP: owner's rule R161. -/
def execGetSleep (tag : Byte) (payload : List Byte) (s : State) : Host.Outcome State Fault Refusal :=
  .next (whileRunning (request .getSleep tag payload) s)

/-- SET_SLEEP_POLICY: owner's rule R162. -/
def execSetSleepPolicy (tag : Byte) (payload : List Byte) (s : State) : Host.Outcome State Fault Refusal :=
  .next (whileRunning (request .setSleepPolicy tag payload) s)

/-- SET_WAKE_CAUSES: owner's rule R163. -/
def execSetWakeCauses (tag : Byte) (payload : List Byte) (s : State) : Host.Outcome State Fault Refusal :=
  .next (whileRunning (request .setWakeCauses tag payload) s)

/-- GET_CONDITIONS: owner's rule R174. -/
def execGetConditions (tag : Byte) (payload : List Byte) (s : State) : Host.Outcome State Fault Refusal :=
  .next (whileRunning (request .getConditions tag payload) s)

/-- GET_HISTORY: owner's rule R172. -/
def execGetHistory (tag : Byte) (payload : List Byte) (s : State) : Host.Outcome State Fault Refusal :=
  .next (whileRunning (request .getHistory tag payload) s)

/-- CLEAR_CONDITIONS: owner's rule R167. -/
def execClearConditions (tag : Byte) (payload : List Byte) (s : State) : Host.Outcome State Fault Refusal :=
  .next (whileRunning (request .clearConditions tag payload) s)

/-- SAVE_SETTINGS: owner's rule R197. -/
def execSaveSettings (tag : Byte) (payload : List Byte) (s : State) : Host.Outcome State Fault Refusal :=
  .next (whileRunning (request .saveSettings tag payload) s)

/-- RESTORE_DEFAULTS: owner's rule R198. -/
def execRestoreDefaults (tag : Byte) (payload : List Byte) (s : State) : Host.Outcome State Fault Refusal :=
  .next (whileRunning (request .restoreDefaults tag payload) s)

end Sys2Proof.Machine
end

