-- ==== Sys2Proof/Machine/CmdReset.lean ====
section
/-! DEFINITION. The meanings of the reset commands (R176, R194) and of a whole second (R175). -/

namespace Sys2Proof.Machine

/-- POWER_ON: a POWER_ON reset (R176, R194). -/
def execPowerOn (s : State) : Host.Outcome State Fault Refusal :=
  .next (beginReset .powerOn s)

/-- BROWNOUT: a BROWNOUT reset (R176, R194). -/
def execBrownout (s : State) : Host.Outcome State Fault Refusal :=
  .next (beginReset .brownout s)

/-- NRST_ASSERTED: a PIN reset begins and is held (R176). -/
def execNrstAsserted (s : State) : Host.Outcome State Fault Refusal :=
  .next (assertReset s)

/-- NRST_RELEASED: the reset that NRST held ends (R176, R194). -/
def execNrstReleased (s : State) : Host.Outcome State Fault Refusal :=
  .next (releaseReset s)

/-- UPTIME_TICK: the rest of the second passes and the uptime rises by one (R175). -/
def execUptimeTick (s : State) : Host.Outcome State Fault Refusal :=
  .next (whileRunning (fun s => onExpiry (some s.nextSecond) tickUptime s) s)

end Sys2Proof.Machine
end

