-- ==== Sys2Proof/Machine/CmdSensing.lean ====
section
/-! DEFINITION. The meanings of the display reader's, the magnet inputs' and the base sample commands (Chapter 1). -/

namespace Sys2Proof.Machine

/-- DISPLAY_PERIOD_EXPIRY (R2). -/
def execDisplayPeriodExpiry (s : State) : Host.Outcome State Fault Refusal :=
  .next (whileRunning (fun s => onExpiry s.sfe.period readDue s) s)

/-- DISPLAY_READ_SAMPLE (R3, R5, R6, R15). -/
def execDisplayReadSample (x y z : Int) (s : State) : Host.Outcome State Fault Refusal :=
  .next (whileRunning (fun s => onEnd (readInFlight s.sfe) (readSampled ⟨x, y, z⟩) s) s)

/-- DISPLAY_READ_FAILURE (R3, R4, R6). -/
def execDisplayReadFailure (cause : ReadFailure) (s : State) : Host.Outcome State Fault Refusal :=
  .next (whileRunning (fun s => onEnd (readInFlight s.sfe) (readFailed (failureCode cause)) s) s)

/-- DISPLAY_READ_TIMEOUT: code 3, 10 ms after the read's start (R3, R4, R6). -/
def execDisplayReadTimeout (s : State) : Host.Outcome State Fault Refusal :=
  .next (whileRunning (fun s => onEnd (readInFlight s.sfe) (onExpiry s.sfe.readLimit (readFailed 3)) s) s)

/-- MAGNET_LEVEL_CHANGE (R17, R20). -/
def execMagnetLevelChange (magnet : Magnet) (level : Level) (s : State) : Host.Outcome State Fault Refusal :=
  .next (onInput (fun s => { s with sfe := setMagnet magnet { magnetRec magnet s.sfe with raw := level } s.sfe })
    (magnetChanged magnet level) s)

/-- HALL_DEBOUNCE_EXPIRY (R17, R18). -/
def execHallDebounceExpiry (magnet : Magnet) (s : State) : Host.Outcome State Fault Refusal :=
  .next (whileRunning (fun s => onExpiry (magnetRec magnet s.sfe).timer (magnetHeld magnet) s) s)

/-- BASE_SAMPLE (R10, R63). -/
def execBaseSample (x y z : Int) (s : State) : Host.Outcome State Fault Refusal :=
  .next (whileRunning (baseSampleArrived ⟨x, y, z⟩) s)

end Sys2Proof.Machine
end

