-- ==== Sys2Proof/Machine/CmdSleep.lean ====
section
/-! DEFINITION. The meanings of the sleep advice and wake timer commands (Chapter 8). -/

namespace Sys2Proof.Machine

/-- TRIGGER_TIMER_EXPIRY (R147, R149). -/
def execTriggerTimerExpiry (trigger : Trigger) (s : State) : Host.Outcome State Fault Refusal :=
  .next (whileRunning (fun s => onExpiry (triggerRec trigger s.spu).timer (mature trigger) s) s)

/-- LID_CONFIRM_TIMER_EXPIRY (R153). -/
def execLidConfirmTimerExpiry (s : State) : Host.Outcome State Fault Refusal :=
  .next (whileRunning (fun s => onExpiry s.spu.lidConfirm lidConfirmed s) s)

/-- WAKE_TIMER_EXPIRY (R156, R157). -/
def execWakeTimerExpiry (s : State) : Host.Outcome State Fault Refusal :=
  .next (whileRunning (fun s => onExpiry (whenIn (decide (s.spu.state = .waking)) s.spu.wake) wakeExpired s) s)

/-- GAP_TIMER_EXPIRY (R156). -/
def execGapTimerExpiry (s : State) : Host.Outcome State Fault Refusal :=
  .next (whileRunning (fun s => onExpiry (whenIn (decide (s.spu.state = .waking)) s.spu.gap) nextAttempt s) s)

end Sys2Proof.Machine
end

