-- ==== Sys2Proof/Machine/CmdStore.lean ====
section
/-! DEFINITION. The meanings of the commit commands (Chapter 11). -/

namespace Sys2Proof.Machine

/-- COMMIT_WRITE_DONE (R195). -/
def execCommitWriteDone (faulty : Option Image) (s : State) : Host.Outcome State Fault Refusal :=
  .next (whileRunning (writeDone faulty) s)

/-- COMMIT_VERIFY_DONE (R195, R197). -/
def execCommitVerifyDone (s : State) : Host.Outcome State Fault Refusal :=
  .next (whileRunning verifyDone s)

end Sys2Proof.Machine
end

