-- ==== Sys2Proof/Machine/CmdSupply.lean ====
section
/-! DEFINITION. The meanings of the scan commands (Chapter 6). -/

namespace Sys2Proof.Machine

/-- SCAN_PERIOD_EXPIRY (R101). -/
def execScanPeriodExpiry (s : State) : Host.Outcome State Fault Refusal :=
  .next (whileRunning (fun s => onExpiry s.sm.period scanDue s) s)

/-- SCAN_COMPLETION (R103 to R109). -/
def execScanCompletion (vsys : Nat) (temp : Int) (pen : Nat) (s : State) : Host.Outcome State Fault Refusal :=
  .next (whileRunning (fun s => onEnd s.sm.scanning (scanCompleted vsys temp pen) s) s)

end Sys2Proof.Machine
end

