-- ==== Sys2Proof/Machine/Dispatch.lean ====
section
/-! DEFINITION. The dispatch: one arm per command, each one direct call of its meaning. -/

namespace Sys2Proof.Machine

def exec (i : Instr) (s : State) : Host.Outcome State Fault Refusal :=
  match i with
  | .powerOn => Sys2Proof.Machine.execPowerOn s
  | .brownout => Sys2Proof.Machine.execBrownout s
  | .nrstAsserted => Sys2Proof.Machine.execNrstAsserted s
  | .nrstReleased => Sys2Proof.Machine.execNrstReleased s
  | .displayPeriodExpiry => Sys2Proof.Machine.execDisplayPeriodExpiry s
  | .displayReadSample x y z => Sys2Proof.Machine.execDisplayReadSample x y z s
  | .displayReadFailure cause => Sys2Proof.Machine.execDisplayReadFailure cause s
  | .displayReadTimeout => Sys2Proof.Machine.execDisplayReadTimeout s
  | .magnetLevelChange magnet level => Sys2Proof.Machine.execMagnetLevelChange magnet level s
  | .hallDebounceExpiry magnet => Sys2Proof.Machine.execHallDebounceExpiry magnet s
  | .getVectors tag payload => Sys2Proof.Machine.execGetVectors tag payload s
  | .getPosture tag payload => Sys2Proof.Machine.execGetPosture tag payload s
  | .setRotationLock tag payload => Sys2Proof.Machine.execSetRotationLock tag payload s
  | .setTuning tag payload => Sys2Proof.Machine.execSetTuning tag payload s
  | .bpresChange level => Sys2Proof.Machine.execBpresChange level s
  | .baseSettleTimerExpiry => Sys2Proof.Machine.execBaseSettleTimerExpiry s
  | .baseGone => Sys2Proof.Machine.execBaseGone s
  | .queryTimerExpiry => Sys2Proof.Machine.execQueryTimerExpiry s
  | .cyclingTimerExpiry => Sys2Proof.Machine.execCyclingTimerExpiry s
  | .ident serial model draw revision => Sys2Proof.Machine.execIdent serial model draw revision s
  | .baseSample x y z => Sys2Proof.Machine.execBaseSample x y z s
  | .quiesced => Sys2Proof.Machine.execQuiesced s
  | .quiesceTimerExpiry => Sys2Proof.Machine.execQuiesceTimerExpiry s
  | .baseLinkRecordDiscard => Sys2Proof.Machine.execBaseLinkRecordDiscard s
  | .listBases tag payload => Sys2Proof.Machine.execListBases tag payload s
  | .forgetBase tag payload => Sys2Proof.Machine.execForgetBase tag payload s
  | .setBaseOffset tag payload => Sys2Proof.Machine.execSetBaseOffset tag payload s
  | .acceptBase tag payload => Sys2Proof.Machine.execAcceptBase tag payload s
  | .setBasePolicy tag payload => Sys2Proof.Machine.execSetBasePolicy tag payload s
  | .calibrateHinge tag payload => Sys2Proof.Machine.execCalibrateHinge tag payload s
  | .dbtnChange level => Sys2Proof.Machine.execDbtnChange level s
  | .buttonHoldExpiry => Sys2Proof.Machine.execButtonHoldExpiry s
  | .detachConsent tag payload => Sys2Proof.Machine.execDetachConsent tag payload s
  | .requestDetach tag payload => Sys2Proof.Machine.execRequestDetach tag payload s
  | .consentTimerExpiry => Sys2Proof.Machine.execConsentTimerExpiry s
  | .grantWaitExpiry => Sys2Proof.Machine.execGrantWaitExpiry s
  | .lswChange pos => Sys2Proof.Machine.execLswChange pos s
  | .openCheckExpiry => Sys2Proof.Machine.execOpenCheckExpiry s
  | .releaseWindowExpiry => Sys2Proof.Machine.execReleaseWindowExpiry s
  | .closeCheckExpiry => Sys2Proof.Machine.execCloseCheckExpiry s
  | .blinkTimerExpiry => Sys2Proof.Machine.execBlinkTimerExpiry s
  | .setDetachPolicy tag payload => Sys2Proof.Machine.execSetDetachPolicy tag payload s
  | .scanPeriodExpiry => Sys2Proof.Machine.execScanPeriodExpiry s
  | .scanCompletion vsys temp pen => Sys2Proof.Machine.execScanCompletion vsys temp pen s
  | .getSupply tag payload => Sys2Proof.Machine.execGetSupply tag payload s
  | .pdetChange level => Sys2Proof.Machine.execPdetChange level s
  | .penSettleTimerExpiry => Sys2Proof.Machine.execPenSettleTimerExpiry s
  | .penRemoval => Sys2Proof.Machine.execPenRemoval s
  | .pollTimerExpiry => Sys2Proof.Machine.execPollTimerExpiry s
  | .responseTimerExpiry => Sys2Proof.Machine.execResponseTimerExpiry s
  | .penStatus intact status => Sys2Proof.Machine.execPenStatus intact status s
  | .prechargeTimerExpiry => Sys2Proof.Machine.execPrechargeTimerExpiry s
  | .safetyTimerExpiry => Sys2Proof.Machine.execSafetyTimerExpiry s
  | .getPen tag payload => Sys2Proof.Machine.execGetPen tag payload s
  | .setPenCharging tag payload => Sys2Proof.Machine.execSetPenCharging tag payload s
  | .hostState tag payload => Sys2Proof.Machine.execHostState tag payload s
  | .triggerTimerExpiry trigger => Sys2Proof.Machine.execTriggerTimerExpiry trigger s
  | .lidConfirmTimerExpiry => Sys2Proof.Machine.execLidConfirmTimerExpiry s
  | .wakeTimerExpiry => Sys2Proof.Machine.execWakeTimerExpiry s
  | .gapTimerExpiry => Sys2Proof.Machine.execGapTimerExpiry s
  | .getSleep tag payload => Sys2Proof.Machine.execGetSleep tag payload s
  | .setSleepPolicy tag payload => Sys2Proof.Machine.execSetSleepPolicy tag payload s
  | .setWakeCauses tag payload => Sys2Proof.Machine.execSetWakeCauses tag payload s
  | .clearConditions tag payload => Sys2Proof.Machine.execClearConditions tag payload s
  | .getConditions tag payload => Sys2Proof.Machine.execGetConditions tag payload s
  | .getHistory tag payload => Sys2Proof.Machine.execGetHistory tag payload s
  | .uptimeTick => Sys2Proof.Machine.execUptimeTick s
  | .lengthByteAbandon byte => Sys2Proof.Machine.execLengthByteAbandon byte s
  | .rxGapTimeout => Sys2Proof.Machine.execRxGapTimeout s
  | .frameReject => Sys2Proof.Machine.execFrameReject s
  | .unknownKindFrame kind tag payload => Sys2Proof.Machine.execUnknownKindFrame kind tag payload s
  | .txFrameDone => Sys2Proof.Machine.execTxFrameDone s
  | .identify tag payload => Sys2Proof.Machine.execIdentify tag payload s
  | .subscribe tag payload => Sys2Proof.Machine.execSubscribe tag payload s
  | .unsubscribe tag payload => Sys2Proof.Machine.execUnsubscribe tag payload s
  | .resetPart tag payload => Sys2Proof.Machine.execResetPart tag payload s
  | .saveSettings tag payload => Sys2Proof.Machine.execSaveSettings tag payload s
  | .restoreDefaults tag payload => Sys2Proof.Machine.execRestoreDefaults tag payload s
  | .commitWriteDone faulty => Sys2Proof.Machine.execCommitWriteDone faulty s
  | .commitVerifyDone => Sys2Proof.Machine.execCommitVerifyDone s
  | .rxdByte byte => Sys2Proof.Machine.execRxdByte byte s

end Sys2Proof.Machine
end

