-- ==== Sys2Proof/Machine/Step.lean ====
section
/-! DEFINITION. One step of the part: the command at the front of the queue is taken, or a millisecond passes. -/

namespace Sys2Proof.Machine

/-- A millisecond with no command: time passes, unless NRST holds a reset. DESIGN CHOICE (notes/assumptions/4.md): the table
has no row for the timebase, so an empty queue lets it run. -/
def idle (s : State) : State := whileRunning (advance 1) s

/-- The step: the command at the front of the queue runs over the rest of it; an empty queue idles. -/
def step (s : State) : Host.Outcome State Fault Refusal :=
  match s.pending with
  | [] => .next (idle s)
  | c :: rest => exec c { s with pending := rest }

/-- The state with the command that a word spells put at the front of its queue; the table gives its rows no bits, so no
word spells one. -/
def State.withFetchWord (s : State) (nbits w : Nat) : State :=
  match decodeTableWord nbits w with
  | some c => { s with pending := c :: s.pending }
  | none => s

end Sys2Proof.Machine
end

