-- ==== Sys2Proof/Safety.lean ====
section
/-! DEFINITION. What claims are stated in: what the manual calls laws of the part, as properties of one state; which
parts of the state a step leaves as they were; and a request that is accepted, handed and answered. -/

namespace Sys2Proof.Machine

/-- The forced value of P (R35). -/
def forcedValue (s : State) : Option Posture :=
  match situationNow s with
  | .lid => some .closed
  | .noBase => some .detached
  | .none => none

/-- R35: while LIDH is asserted P is CLOSED; otherwise P is DETACHED exactly when BM is in none of ATTACHED, DETACH_ASKED
and RELEASING. -/
def lawForced (s : State) : Prop :=
  if s.sfe.lid.level = .asserted then s.pe.posture.value = .closed
  else s.pe.posture.value = .detached ↔ BmState.hinged s.bm.state = false

/-- A lock machine's run is short of the count in force, and is 0 with no pending candidate (R47). -/
def lockOk {α : Type} (acquire change : Nat) (l : Lock α) : Prop :=
  l.run < countInForce acquire change l.state ∧ (l.pending = none → l.run = 0)

/-- R47. -/
def lawRuns (s : State) : Prop :=
  lockOk s.settings.tuning.postureAcquire s.settings.tuning.postureChange s.pe.posture ∧
  lockOk s.settings.tuning.orientAcquire s.settings.tuning.orientChange s.pe.orient

/-- R74: at most 4 entries with pairwise different serials; the ranks are the places in the list. -/
def lawTable (s : State) : Prop := s.settings.table.length ≤ 4 ∧ (s.settings.table.map (·.serial)).Nodup

/-- R90: LSOL is on only in RELEASING with the LATCH grant at 250 mA. -/
def lawLatch (s : State) : Prop := s.det.lsol = true → s.bm.state = .releasing ∧ s.rba.grants.latch = 250

/-- R114: the grants never exceed the capacity. -/
def lawGrants (s : State) : Prop := s.rba.grants.base + s.rba.grants.latch + s.rba.grants.pen ≤ s.rba.capacity

/-- R129: the setpoint never exceeds the PEN grant, is 0 outside the charging phases, and 0 in CRITICAL. -/
def lawSetpoint (s : State) : Prop :=
  s.pdc.setpoint ≤ s.rba.grants.pen ∧ (PdcState.charging s.pdc.state = false → s.pdc.setpoint = 0) ∧
  (s.sm.supply = .critical → s.pdc.setpoint = 0)

/-- R138: the cycle's charge time stays within its safety limit outside FAULT. -/
def lawChargeTime (s : State) : Prop := s.pdc.state ≠ .fault → s.pdc.chargeMs ≤ s.pdc.limitMin * 60000

/-- R156: HWAKE only in WAKING, and no more attempts than the episode limit. -/
def lawWake (s : State) : Prop :=
  (s.spu.hwake = true → s.spu.state = .waking) ∧ s.spu.attempt ≤ s.spu.limit.getD 0

/-- R167: a live condition is latched. -/
def lawLatched (s : State) : Prop := s.cm.live &&& ~~~ s.cm.latched = 0

/-- At most one entry of each state kind. -/
def noRepeats (q : List Event) : Prop := ((q.filter fun e => e.kind.isState).map Event.kind).Nodup

/-- R189: the event queue holds at most 24 entries and never two of one state kind. -/
def lawQueue (s : State) : Prop := s.lc.queue.length ≤ 24 ∧ noRepeats s.lc.queue

/-- R180, R181: at most four requests are held, each in one of the four places and no two in one. -/
def lawSlots (s : State) : Prop :=
  s.lc.slots.length ≤ 4 ∧ (∀ sl ∈ s.lc.slots, sl.place < 4) ∧ (s.lc.slots.map (·.place)).Nodup

/-- The first WAITING slot, if there is one, holds a HOST_STATE, and every one behind it a request of SPU's owner queue
(R181). -/
def hostStateLeads (slots : List Slot) : Prop :=
  match slots.filter fun sl => sl.phase == .waiting with
  | [] => True
  | sl :: rest => sl.kind = .hostState ∧ ∀ x ∈ rest, kindOwner x.kind = .spu

/-- R181: with the reset gate open a request waits only while an event frame is being sent, and only at or behind a waiting
HOST_STATE. -/
def lawWaiting (s : State) : Prop :=
  s.lc.gateClosed = false →
    hostStateLeads s.lc.slots ∧ ((∃ sl ∈ s.lc.slots, sl.phase = .waiting) → sendingEvent s.lc = true)

/-- R181, R197: each save that waits for a commit is a request in a TAKEN slot, no two of them in one. -/
def lawSaves (s : State) : Prop :=
  (s.ss.waiting.map (·.place)).Nodup ∧ ∀ w ∈ s.ss.waiting, ∃ sl ∈ s.lc.slots, sl.place = w.place ∧ sl.phase = .taken

/-- R183: no event message is transmitted while the host state view is SUSPENDED or OFF. -/
def lawHold (s : State) : Prop := sendingEvent s.lc = true → HostView.holdsEvents s.spu.host = false

/-! ## What a step leaves as it was -/

/-- The parts of the state; together they are all of it (`Changes.nothing`). -/
inductive Part where
  /-- the millisecond timebase -/
  | now
  /-- when the next whole second falls -/
  | second
  /-- the NRST pin and the reset it holds -/
  | reset
  /-- the tuning record -/
  | tuning
  /-- the sleep policy -/
  | sleepPolicy
  /-- the wake-cause table -/
  | wakeTable
  /-- the detach policy -/
  | detachPolicy
  /-- the acceptance policy -/
  | basePolicy
  /-- the pen settings -/
  | penSettings
  /-- the paired-base table -/
  | table
  /-- the display reader, its failure count and its fault flag -/
  | reader
  /-- the display sample and filter -/
  | display
  /-- the base sample, its filter and its freshness -/
  | baseSamples
  /-- the late flag -/
  | late
  /-- SFE's base stream view -/
  | baseView
  /-- the magnet records -/
  | magnets
  /-- the vectors divider -/
  | divider
  /-- the two lock machines -/
  | locks
  /-- the forcing situation -/
  | forcing
  /-- the halt flag -/
  | halt
  /-- the fresh flag, the abstain run and whether θ is current -/
  | freshness
  /-- the last abstain reason -/
  | abstain
  /-- the reported orientation and the closed freeze value -/
  | reported
  /-- the rotation lock and its value -/
  | rotation
  /-- the sequence number and θ -/
  | hinge
  /-- the active base's serial and offset as PE holds them -/
  | hingeBase
  /-- the base presence input and its timers -/
  | presence
  /-- BM's state -/
  | bmState
  /-- base power and identification -/
  | identify
  /-- the base stream -/
  | stream
  /-- the marks of a new table entry -/
  | marks
  /-- the active base -/
  | active
  /-- the detach button -/
  | button
  /-- the blink timer -/
  | blink
  /-- the detach attempt -/
  | attempt
  /-- the latch solenoid -/
  | lsol
  /-- the latch switch -/
  | lsw
  /-- the scanner -/
  | scanner
  /-- the scan period -/
  | scanPeriod
  /-- the supply readings -/
  | readings
  /-- the supply and thermal bands -/
  | bands
  /-- the rail capacity -/
  | capacity
  /-- the claims of BM -/
  | claims
  /-- the claim of PDC -/
  | penClaim
  /-- the grant table -/
  | grants
  /-- the pen presence input and its timers -/
  | garage
  /-- the pen polls -/
  | polls
  /-- the charging of the pen -/
  | charging
  /-- the last PEN_STATUS -/
  | penLast
  /-- the host state view -/
  | host
  /-- SPU's state -/
  | spuState
  /-- SPU's posture view -/
  | view
  /-- the triggers and the advised-reason set -/
  | triggers
  /-- the pending causes and the cause set -/
  | causes
  /-- the lid-confirm timer -/
  | lidConfirm
  /-- the wake episode and HWAKE -/
  | episode
  /-- the part mode -/
  | mode
  /-- the live flags -/
  | live
  /-- the latched flags -/
  | latched
  /-- the history ring and its counter -/
  | history
  /-- the reset cause -/
  | cause
  /-- the uptime -/
  | uptime
  /-- the receive assembler -/
  | assembler
  /-- the request slots, the refusal slot and the transmitter -/
  | link
  /-- the class grant -/
  | grant
  /-- the event queue and its lost mark -/
  | queue
  /-- the reset gate -/
  | gate
  /-- the nonvolatile image -/
  | image
  /-- the commit record -/
  | commit
  /-- the records sent on BTX -/
  | btx
  /-- the STATUS_QUERY records sent on PLINE -/
  | queries
  /-- MODEL FIELD: the free orders consulted -/
  | choices
  /-- MODEL FIELD: the waiting commands -/
  | waiting
  deriving DecidableEq, Repr

/-- A part of the state is the same before and after. -/
def Part.Same : Part → State → State → Prop
  | .now, s, t => t.now = s.now
  | .second, s, t => t.nextSecond = s.nextSecond
  | .reset, s, t => (t.nrst, t.held) = (s.nrst, s.held)
  | .tuning, s, t => t.settings.tuning = s.settings.tuning
  | .sleepPolicy, s, t => t.settings.sleep = s.settings.sleep
  | .wakeTable, s, t => t.settings.wake = s.settings.wake
  | .detachPolicy, s, t => t.settings.detach = s.settings.detach
  | .basePolicy, s, t => t.settings.basePolicy = s.settings.basePolicy
  | .penSettings, s, t => t.settings.pen = s.settings.pen
  | .table, s, t => t.settings.table = s.settings.table
  | .reader, s, t =>
    (t.sfe.reader, t.sfe.discard, t.sfe.failures, t.sfe.fault, t.sfe.period, t.sfe.readLimit) =
    (s.sfe.reader, s.sfe.discard, s.sfe.failures, s.sfe.fault, s.sfe.period, s.sfe.readLimit)
  | .display, s, t => (t.sfe.dFilter, t.sfe.dRaw, t.sfe.dPlausible) = (s.sfe.dFilter, s.sfe.dRaw, s.sfe.dPlausible)
  | .baseSamples, s, t =>
    (t.sfe.bFilter, t.sfe.bRaw, t.sfe.moving, t.sfe.lastArrival, t.sfe.staleRun, t.sfe.lastStatus) =
    (s.sfe.bFilter, s.sfe.bRaw, s.sfe.moving, s.sfe.lastArrival, s.sfe.staleRun, s.sfe.lastStatus)
  | .late, s, t => t.sfe.late = s.sfe.late
  | .baseView, s, t => t.sfe.view = s.sfe.view
  | .magnets, s, t => (t.sfe.lid, t.sfe.fold) = (s.sfe.lid, s.sfe.fold)
  | .divider, s, t => t.sfe.divider = s.sfe.divider
  | .locks, s, t => (t.pe.posture, t.pe.orient) = (s.pe.posture, s.pe.orient)
  | .forcing, s, t => t.pe.situation = s.pe.situation
  | .halt, s, t => t.pe.halt = s.pe.halt
  | .freshness, s, t =>
    (t.pe.fresh, t.pe.abstainRun, t.pe.thetaCurrent) =
    (s.pe.fresh, s.pe.abstainRun, s.pe.thetaCurrent)
  | .abstain, s, t => t.pe.lastAbstain = s.pe.lastAbstain
  | .reported, s, t => (t.pe.reported, t.pe.closedFreeze) = (s.pe.reported, s.pe.closedFreeze)
  | .rotation, s, t => (t.pe.rotationLock, t.pe.lockValue) = (s.pe.rotationLock, s.pe.lockValue)
  | .hinge, s, t => (t.pe.sequence, t.pe.theta) = (s.pe.sequence, s.pe.theta)
  | .hingeBase, s, t => (t.pe.serial, t.pe.offset) = (s.pe.serial, s.pe.offset)
  | .presence, s, t => (t.bm.bpres, t.bm.settle, t.bm.loss) = (s.bm.bpres, s.bm.settle, s.bm.loss)
  | .bmState, s, t => t.bm.state = s.bm.state
  | .identify, s, t =>
    (t.bm.bpwr, t.bm.phase, t.bm.cycling, t.bm.queryOut, t.bm.query, t.bm.identity) =
    (s.bm.bpwr, s.bm.phase, s.bm.cycling, s.bm.queryOut, s.bm.query, s.bm.identity)
  | .stream, s, t => (t.bm.stream, t.bm.quiesce) = (s.bm.stream, s.bm.quiesce)
  | .marks, s, t => (t.bm.newEntry, t.bm.evicted) = (s.bm.newEntry, s.bm.evicted)
  | .active, s, t => t.bm.active = s.bm.active
  | .button, s, t =>
    (t.det.dbtn, t.det.button, t.det.debounce, t.det.hold) =
    (s.det.dbtn, s.det.button, s.det.debounce, s.det.hold)
  | .blink, s, t => t.det.blink = s.det.blink
  | .attempt, s, t =>
    (t.det.origin, t.det.path, t.det.deadline, t.det.timer, t.det.energised, t.det.closing, t.det.unpowered,
      t.det.outcome) =
    (s.det.origin, s.det.path, s.det.deadline, s.det.timer, s.det.energised, s.det.closing, s.det.unpowered,
      s.det.outcome)
  | .lsol, s, t => t.det.lsol = s.det.lsol
  | .lsw, s, t => t.det.lsw = s.det.lsw
  | .scanner, s, t => t.sm.scanning = s.sm.scanning
  | .scanPeriod, s, t => (t.sm.period, t.sm.periodMs) = (s.sm.period, s.sm.periodMs)
  | .readings, s, t => (t.sm.vsys, t.sm.temp, t.sm.penCurrent) = (s.sm.vsys, s.sm.temp, s.sm.penCurrent)
  | .bands, s, t =>
    (t.sm.supply, t.sm.supplyCandidate, t.sm.thermal, t.sm.thermalCandidate) =
    (s.sm.supply, s.sm.supplyCandidate, s.sm.thermal, s.sm.thermalCandidate)
  | .capacity, s, t => t.rba.capacity = s.rba.capacity
  | .claims, s, t => (t.rba.base, t.rba.latch) = (s.rba.base, s.rba.latch)
  | .penClaim, s, t => t.rba.pen = s.rba.pen
  | .grants, s, t => t.rba.grants = s.rba.grants
  | .garage, s, t => (t.pdc.pdet, t.pdc.settle, t.pdc.removal) = (s.pdc.pdet, s.pdc.settle, s.pdc.removal)
  | .polls, s, t =>
    (t.pdc.poll, t.pdc.response, t.pdc.outstanding, t.pdc.misses) =
    (s.pdc.poll, s.pdc.response, s.pdc.outstanding, s.pdc.misses)
  | .charging, s, t =>
    (t.pdc.state, t.pdc.remembered, t.pdc.reasons, t.pdc.fault, t.pdc.grant, t.pdc.setpoint, t.pdc.cycleOpen,
      t.pdc.chargeMs, t.pdc.prechargeMs, t.pdc.limitMin, t.pdc.runStart) =
    (s.pdc.state, s.pdc.remembered, s.pdc.reasons, s.pdc.fault, s.pdc.grant, s.pdc.setpoint, s.pdc.cycleOpen,
      s.pdc.chargeMs, s.pdc.prechargeMs, s.pdc.limitMin, s.pdc.runStart)
  | .penLast, s, t => t.pdc.last = s.pdc.last
  | .host, s, t => t.spu.host = s.spu.host
  | .spuState, s, t => t.spu.state = s.spu.state
  | .view, s, t => t.spu.view = s.spu.view
  | .triggers, s, t =>
    (t.spu.lid, t.spu.faceDown, t.spu.supply, t.spu.advised) =
    (s.spu.lid, s.spu.faceDown, s.spu.supply, s.spu.advised)
  | .causes, s, t => (t.spu.pending, t.spu.causes) = (s.spu.pending, s.spu.causes)
  | .lidConfirm, s, t => t.spu.lidConfirm = s.spu.lidConfirm
  | .episode, s, t =>
    (t.spu.attempt, t.spu.limit, t.spu.wake, t.spu.gap, t.spu.hwake) =
    (s.spu.attempt, s.spu.limit, s.spu.wake, s.spu.gap, s.spu.hwake)
  | .mode, s, t => t.spu.mode = s.spu.mode
  | .live, s, t => t.cm.live = s.cm.live
  | .latched, s, t => t.cm.latched = s.cm.latched
  | .history, s, t => (t.cm.ring, t.cm.next) = (s.cm.ring, s.cm.next)
  | .cause, s, t => t.cm.cause = s.cm.cause
  | .uptime, s, t => t.cm.uptime = s.cm.uptime
  | .assembler, s, t => t.lc.asm = s.lc.asm
  | .link, s, t =>
    (t.lc.slots, t.lc.refusal, t.lc.tx, t.lc.moments) =
    (s.lc.slots, s.lc.refusal, s.lc.tx, s.lc.moments)
  | .grant, s, t => t.lc.grant = s.lc.grant
  | .queue, s, t => (t.lc.queue, t.lc.lost) = (s.lc.queue, s.lc.lost)
  | .gate, s, t => t.lc.gateClosed = s.lc.gateClosed
  | .image, s, t => t.ss.image = s.ss.image
  | .commit, s, t =>
    (t.ss.state, t.ss.attempt, t.ss.snapshot, t.ss.pending, t.ss.waiting) =
    (s.ss.state, s.ss.attempt, s.ss.snapshot, s.ss.pending, s.ss.waiting)
  | .btx, s, t => t.btx = s.btx
  | .queries, s, t => t.queries = s.queries
  | .choices, s, t => t.choices = s.choices
  | .waiting, s, t => t.pending = s.pending

/-- `t` differs from `s` in the parts listed at most. -/
structure Changes (m : List Part) (s t : State) : Prop where
  same : ∀ p, p ∉ m → p.Same s t

/-- What an event or a reply handed to LC may change: slots, transmitter and queue. -/
def linkParts : List Part := [.link, .queue]

/-- What a change of PE's record may change beside the record: SPU's view and triggers, and messages. -/
def viewParts : List Part := [.reported, .spuState, .view, .triggers, .choices, .link, .queue]

/-- What a choice of part mode may change (R6, R57, R71, R72, R102, R159). -/
def modeParts : List Part :=
  [.mode, .reader, .display, .baseSamples, .late, .baseView, .locks, .freshness, .stream, .scanPeriod, .live, .btx] ++
  viewParts

/-- What a wake cause may change (R152 to R156, R159). -/
def wakeParts : List Part := [.causes, .episode] ++ modeParts

/-- What a report of BM's state to the other blocks may change (R62). -/
def reportParts : List Part := [.forcing, .abstain, .hingeBase] ++ wakeParts

/-- What PDC may change when a claim of BM is filed or withdrawn (R115, R130). -/
def noticeParts : List Part := [.grants, .polls, .charging] ++ wakeParts

/-! ## Events and conditions -/

/-- The event stands in the event queue, or the lost mark says that an event has been dropped (R188 to R190). -/
def Queued (e : Event) (s : State) : Prop := e ∈ s.lc.queue ∨ s.lc.lost = true

/-- A rise of `c` with this detail byte has been taken between `s` and `t`: the flags are set and a history record has been
appended (R165, R170). -/
def Rose (c : Cond) (detail : Nat) (s t : State) : Prop :=
  bitHas t.cm.latched c.idx = true ∧ (c.isState = true → bitHas t.cm.live c.idx = true) ∧
  t.cm.next = s.cm.next + 1 ∧
  ∃ r, t.cm.ring = ringAppend s.cm.ring r ∧ r.cond = c ∧ r.detail = detail ∧ r.seq = s.cm.next ∧ r.earlier = false

/-! ## A request that is accepted and answered (R180, R181) -/

/-- The command that is a good frame of a request kind. -/
def requestCommand (k : ReqKind) (tag : Byte) (p : List Byte) : Instr :=
  match k with
  | .identify => .identify tag p
  | .subscribe => .subscribe tag p
  | .unsubscribe => .unsubscribe tag p
  | .resetPart => .resetPart tag p
  | .getPosture => .getPosture tag p
  | .getVectors => .getVectors tag p
  | .setRotationLock => .setRotationLock tag p
  | .setTuning => .setTuning tag p
  | .calibrateHinge => .calibrateHinge tag p
  | .listBases => .listBases tag p
  | .forgetBase => .forgetBase tag p
  | .setBaseOffset => .setBaseOffset tag p
  | .acceptBase => .acceptBase tag p
  | .setBasePolicy => .setBasePolicy tag p
  | .requestDetach => .requestDetach tag p
  | .detachConsent => .detachConsent tag p
  | .setDetachPolicy => .setDetachPolicy tag p
  | .getSupply => .getSupply tag p
  | .getPen => .getPen tag p
  | .setPenCharging => .setPenCharging tag p
  | .hostState => .hostState tag p
  | .getSleep => .getSleep tag p
  | .setSleepPolicy => .setSleepPolicy tag p
  | .setWakeCauses => .setWakeCauses tag p
  | .getConditions => .getConditions tag p
  | .getHistory => .getHistory tag p
  | .clearConditions => .clearConditions tag p
  | .saveSettings => .saveSettings tag p
  | .restoreDefaults => .restoreDefaults tag p

/-- A request of this kind that arrives now finds a free slot and none of the three cases of R181 that would hold it back:
it is handed to its owner at once. -/
def Ready (k : ReqKind) (s : State) : Prop :=
  s.held = none ∧ s.lc.gateClosed = false ∧ s.lc.slots.length < 4 ∧
  (∀ sl ∈ s.lc.slots, sl.phase = .waiting → kindOwner sl.kind ≠ kindOwner k) ∧
  (k = .hostState → sendingEvent s.lc = false)

/-- The frame of a request has been taken in: the assembler hunts again, and the request stands in a free slot. -/
def inSlot (k : ReqKind) (tag : Byte) (p : List Byte) (ph : SlotPhase) (s : State) : State :=
  { s with
    lc := { s.lc with
      asm := Asm.hunt
      slots := s.lc.slots ++ [{ place := freePlace s.lc.slots, kind := k, tag := tag, payload := p, phase := ph }] } }

/-- The request has been taken in, handed and answered with `r`: its slot is READY from this moment, and the transmitter
looks for its next frame (R181, R183). -/
def replied (k : ReqKind) (tag : Byte) (p : List Byte) (r : Reply) (s : State) : State :=
  kick (let t := inSlot k tag p (.ready r s.lc.moments) s
        { t with lc := { t.lc with moments := s.lc.moments + 1 } })

/-- A reply to a request with this tag stands ready or is being sent. -/
def Answered (k : ReqKind) (tag : Byte) (r : Reply) (s : State) : Prop :=
  ∃ sl ∈ s.lc.slots, sl.kind = k ∧ sl.tag = tag ∧
    ((∃ n, sl.phase = .ready r n) ∨ (sl.phase = .sending ∧ s.lc.tx = some (.reply k tag r)))

end Sys2Proof.Machine
end

