-- ==== Sys2Proof/Certificates/Slice0/Obligations.lean ====
section
/-! DEFINITION. The statements for the provers, chapter by chapter. -/

namespace Sys2Proof.Claims

end Sys2Proof.Claims

open Sys2Proof Sys2Proof.Machine Sys2Proof.Claims

/-! ## The step -/

/-- A step with a command at the front of the queue is that command run over the rest of the queue. -/
def Obligations.StepTakesFront : Prop :=
  ∀ (c : Instr) (rest : List Instr) (s : State),
    s.pending = c :: rest → step s = exec c { s with pending := rest }

/-- The model's choice (notes/assumptions/4.md): on an empty queue a step of a running part lets one millisecond pass, which
moves the timebase and, in an open cycle of a charging pen, the charge times, and nothing else. The charge time stops at the
cycle safety limit and the precharge time at 30 min, where their expiries are due (DEDUCED from R138,
notes/assumptions/9.md). A part that NRST holds in reset stays as it is, and a SOFT reset that still stands ends first
(notes/assumptions/15.md). -/
def Obligations.IdleStepIsOneMillisecond : Prop :=
  ∀ s : State, s.pending = [] →
    let p := s.pdc
    (s.held = none →
      step s =
        .next { s with
          now := s.now + 1
          pdc :=
            if p.cycleOpen = true ∧ PdcState.charging p.state = true then
              { p with
                chargeMs := max p.chargeMs (min (p.limitMin * 60000) (p.chargeMs + 1))
                prechargeMs :=
                  if p.state = .precharge then max p.prechargeMs (min 1800000 (p.prechargeMs + 1)) else p.prechargeMs }
            else p }) ∧
    (s.held.isSome = true → s.nrst = .asserted → step s = .next s) ∧
    (∀ k, s.held = some k → s.nrst = .released → step s = step (endReset k s))

/-- Every command completes, in every state: it answers a next state, and leaves the waiting commands as they are. -/
def Obligations.EveryCommandCompletes : Prop :=
  ∀ (c : Instr) (s : State), ∃ t : State, exec c s = .next t ∧ t.pending = s.pending

/-- A command that only the outside of a reset can bring to the part: a reset cause, or the level of an input pin. -/
def Sys2Proof.Claims.heldTakes : Instr → Bool
  | .powerOn | .brownout | .nrstAsserted | .nrstReleased => true
  | .magnetLevelChange _ _ | .bpresChange _ | .dbtnChange _ | .lswChange _ | .pdetChange _ => true
  | _ => false

/-- What the level of an input pin leaves in a part that is held in reset: the level alone is recorded. -/
def Sys2Proof.Claims.pinRecorded : Instr → Option (State → State)
  | .bpresChange l => some fun s => { s with bm := { s.bm with bpres := l } }
  | .pdetChange l => some fun s => { s with pdc := { s.pdc with pdet := l } }
  | .dbtnChange l => some fun s => { s with det := { s.det with dbtn := l, button := l } }
  | .lswChange p => some fun s => { s with det := { s.det with lsw := p } }
  | .magnetLevelChange .lid l => some fun s => { s with sfe := { s.sfe with lid := { s.sfe.lid with raw := l } } }
  | .magnetLevelChange .fold l => some fun s => { s with sfe := { s.sfe with fold := { s.sfe.fold with raw := l } } }
  | _ => none

/-- R176 keeps the part in reset until NRST is released. What that means for a command is the model's reading (DEDUCED from
R176, notes/assumptions/14.md): the blocks stand at their reset values, every command but a reset cause or the level of a pin
leaves the whole state as it is, and the level of a pin is recorded and does nothing else. The model's choice for a SOFT reset
that still stands when a command comes (notes/assumptions/15.md): the level of a pin falls into it or after it, and any other
command but a reset cause (and but a discarded record, which does nothing) finds it ended. -/
def Obligations.HeldPartTakesPinsAndResetsOnly : Prop :=
  ∀ (s : State),
    (s.held.isSome = true → s.nrst = .asserted →
      (∀ c : Instr, heldTakes c = false → exec c s = .next s) ∧
      (∀ (c : Instr) (put : State → State), pinRecorded c = some put → exec c s = .next (put s))) ∧
    (∀ k, s.held = some k → s.nrst = .released →
      (∀ c : Instr, heldTakes c = false → c ≠ .baseLinkRecordDiscard → exec c s = exec c (endReset k s)) ∧
      exec .baseLinkRecordDiscard s = .next s ∧
      (∀ (c : Instr) (put : State → State), pinRecorded c = some put →
        exec c s = .next (put s.nextChoice) ∨ exec c s = exec c (endReset k s.nextChoice)))

/-! ## Requests on the companion link (10.1, 10.2) -/

/-- A request of any of the 29 kinds that finds a free slot, an open gate, no earlier request of its owner waiting and, for
HOST_STATE, no event frame being sent, is handed to its owner in a slot of its own (R180, R181). -/
def Obligations.RequestIsHandedAtOnce : Prop :=
  ∀ (k : ReqKind) (tag : Byte) (p : List Byte) (s : State), Ready k s → p.length = payloadLength k →
    exec (requestCommand k tag p) s = .next (serve (freePlace s.lc.slots) k p (inSlot k tag p .taken s)) ∧
    freePlace s.lc.slots < 4 ∧ (∀ sl ∈ s.lc.slots, sl.place ≠ freePlace s.lc.slots) ∧
    (inSlot k tag p .taken s).lc.slots.length = s.lc.slots.length + 1

/-- The three cases of R181 hold a request back: an earlier request of its owner waits, HOST_STATE meets an event frame on
the line, or the reset gate is closed. It is then accepted and waits, and nothing but its slot and the assembler changes. -/
def Obligations.RequestWaitsInItsSlot : Prop :=
  ∀ (k : ReqKind) (tag : Byte) (p : List Byte) (s : State),
    s.held = none → p.length = payloadLength k → s.lc.slots.length < 4 →
    ((∃ sl ∈ s.lc.slots, sl.phase = .waiting ∧ kindOwner sl.kind = kindOwner k) ∨
      (k = .hostState ∧ sendingEvent s.lc = true) ∨ s.lc.gateClosed = true) →
    exec (requestCommand k tag p) s = .next (inSlot k tag p .waiting s)

/-- What an occupied refusal slot, or a free one, makes of an item: an occupied slot drops it, a free one takes it, ready
from this moment, and the transmitter looks for its next frame (R182, R183). -/
def Sys2Proof.Claims.refusalTaken (item : RefusalItem) (s : State) : State :=
  let u := { s with lc := { s.lc with asm := Asm.hunt } }
  match s.lc.refusal with
  | some _ => u
  | none =>
    kick { u with
      lc := { u.lc with
        refusal := some { item := item, since := s.lc.moments, sending := false }, moments := s.lc.moments + 1 } }

/-- The refusals of R180 in their order, and the notice of R179: an unknown kind, a wrong payload length, four held slots, a
damaged frame. Nothing but the assembler and the link changes, and an item that meets an occupied slot is dropped. -/
def Obligations.FramesThatTheLinkRefuses : Prop :=
  ∀ (tag : Byte) (p : List Byte) (s : State), s.held = none →
    (∀ kind : Byte, kindOf kind.toNat = none →
      exec (.unknownKindFrame kind tag p) s = .next (refusalTaken (.unknownKind kind tag) s)) ∧
    (∀ k : ReqKind, p.length ≠ payloadLength k →
      exec (requestCommand k tag p) s = .next (refusalTaken (.badLength k tag) s)) ∧
    (∀ k : ReqKind, p.length = payloadLength k → 4 ≤ s.lc.slots.length →
      exec (requestCommand k tag p) s = .next (refusalTaken (.busy k tag) s)) ∧
    exec .frameReject s = .next (refusalTaken .frameReject s) ∧
    (∀ item, Changes [.assembler, .link, .queue] s (refusalTaken item s)) ∧
    (∀ item, s.lc.refusal.isSome = true → Changes [.assembler] s (refusalTaken item s))

/-! ## The receive assembler (R178, R179) -/

/-- A byte in HUNT, as R178 says: 0xC3 starts a frame, any other byte is discarded. -/
def Sys2Proof.Claims.huntedByte (now : Nat) (b : Byte) : Asm :=
  if b = 0xC3#8 then { state := .length, expected := 0, body := [], sum := 0, gap := some (now + 6) } else Asm.hunt

/-- R178 and R179: what RXD_BYTE, LENGTH_BYTE_ABANDON and RX_GAP_TIMEOUT make of the assembler in each of its states. The gap
timer is due 6 ms after a byte, the first whole millisecond at which more than 5 ms have passed (DEDUCED from R178,
notes/assumptions/13.md); its expiry carries the rest of that time (3), and the expiry of an idle one changes nothing (8). -/
def Obligations.ReceiveAssemblerTakesBytes : Prop :=
  ∀ (b : Byte) (s : State), s.held = none →
    let put : Asm → State := fun a => { s with lc := { s.lc with asm := a } }
    (s.lc.asm.state = .hunt → exec (.rxdByte b) s = .next (put (huntedByte s.now b))) ∧
    (s.lc.asm.state = .length → 2 ≤ b.toNat → b.toNat ≤ 126 →
      exec (.rxdByte b) s =
        .next (put { state := .body, expected := b.toNat, body := [], sum := b.toNat, gap := some (s.now + 6) })) ∧
    (s.lc.asm.state = .length → (b.toNat < 2 ∨ 126 < b.toNat) →
      exec (.rxdByte b) s = .next (put (huntedByte s.now b)) ∧
      exec (.lengthByteAbandon b) s = .next (put (huntedByte s.now b))) ∧
    (s.lc.asm.state = .body →
      exec (.rxdByte b) s =
        .next (put
          { s.lc.asm with
            body := s.lc.asm.body ++ [b], sum := s.lc.asm.sum + b.toNat, gap := some (s.now + 6)
            state := if s.lc.asm.expected ≤ s.lc.asm.body.length + 1 then .check else .body })) ∧
    (s.lc.asm.state = .check → b ≠ BitVec.ofNat 8 (255 - s.lc.asm.sum % 256) →
      exec (.rxdByte b) s = exec .frameReject s) ∧
    (∀ kind tag p, s.lc.asm.state = .check → b = BitVec.ofNat 8 (255 - s.lc.asm.sum % 256) →
      s.lc.asm.body = kind :: tag :: p →
      exec (.rxdByte b) s =
        (match kindOf kind.toNat with
         | some k => exec (requestCommand k tag p) s
         | none => exec (.unknownKindFrame kind tag p) s)) ∧
    (∀ d, s.lc.asm.gap = some d →
      exec .rxGapTimeout s = .next { runTo d s with lc := { s.lc with asm := Asm.hunt } }) ∧
    (s.lc.asm.gap = none → exec .rxGapTimeout s = .next s)

/-- The steps of a number of commands. -/
def Sys2Proof.Claims.stepTimes : Nat → State → Host.Outcome State Fault Refusal
  | 0, s => .next s
  | n + 1, s =>
    match step s with
    | .next t => stepTimes n t
    | o => o

/-- The bytes of a request frame, each one a command, leave the part in the state that the request command leaves it in:
the assembler of R178 and R179 and the layout of 10.8 agree for every kind, tag and payload of up to 124 bytes. -/
def Obligations.FrameBytesMakeTheRequest : Prop :=
  ∀ (k : ReqKind) (tag : Byte) (p : List Byte) (rest : List Instr) (s : State),
    s.held = none → s.lc.asm.state = .hunt → p.length ≤ 124 →
    stepTimes (frameBytes (kindCode k) tag p).length
        { s with pending := (frameBytes (kindCode k) tag p).map Instr.rxdByte ++ rest } =
      step { s with pending := requestCommand k tag p :: rest }

/-! ## The transmitter (R183) and the end of a frame -/

/-- The requests that wait in their slots are handed, in the order of acceptance, and the transmitter then chooses. -/
def Sys2Proof.Claims.handedInTurn (s : State) : State :=
  kick ((s.lc.slots.filter fun sl => sl.phase == .waiting).foldl
    (fun u sl =>
      serve sl.place sl.kind sl.payload
        { u with
          lc := { u.lc with
            slots := u.lc.slots.map fun y => if y.place = sl.place then { y with phase := .taken } else y } })
    s)

/-- The last byte of a frame has left: a reply frees its slot, a refusal frees the refusal slot. Where no request waits, or
the reset gate is closed, the transmitter then chooses its next frame. Requests that waited for an event frame, a HOST_STATE
and what SPU's owner queue has behind it, are handed in the order of acceptance before that choice, so no further event
starts first (that with the gate open a request waits only at or behind a waiting HOST_STATE is the invariant `lawWaiting` of
StepKeepsHoldAndSlotLaws). After the reply to RESET_PART the SOFT reset begins (R181 to R183, R191); whether it has ended when the next
command comes is a free order (notes/assumptions/15.md). With no frame being sent nothing ends, and nothing changes (the
model's choice, notes/assumptions/8.md). -/
def Obligations.FrameEndFreesItsSlot : Prop :=
  ∀ s : State, s.held = none →
    let quiet := s.lc.gateClosed = true ∨ ∀ sl ∈ s.lc.slots, sl.phase ≠ .waiting
    let queued := lawSlots s ∧ s.lc.gateClosed = false ∧ hostStateLeads s.lc.slots
    let sent : State := { s with lc := { s.lc with slots := s.lc.slots.filter fun sl => sl.phase != .sending, tx := none } }
    let refused : State := { s with lc := { s.lc with refusal := none, tx := none } }
    let told : State := { s with lc := { s.lc with tx := none } }
    (∀ k tag r, s.lc.tx = some (.reply k tag r) → k ≠ .resetPart →
      (quiet → exec .txFrameDone s = .next (kick sent)) ∧
      (queued → exec .txFrameDone s = .next (handedInTurn sent))) ∧
    (∀ item, s.lc.tx = some (.refusal item) →
      (quiet → exec .txFrameDone s = .next (kick refused)) ∧
      (queued → exec .txFrameDone s = .next (handedInTurn refused))) ∧
    (∀ lost e, s.lc.tx = some (.event lost e) →
      (quiet → exec .txFrameDone s = .next (kick told)) ∧
      (queued → exec .txFrameDone s = .next (handedInTurn told))) ∧
    (∀ tag r, s.lc.tx = some (.reply .resetPart tag r) → s.nrst = .released →
      exec .txFrameDone s = .next (endReset .soft s.nextChoice) ∨
      exec .txFrameDone s = .next { blank s.nextChoice with held := some .soft }) ∧
    (s.lc.tx = none → exec .txFrameDone s = .next s) ∧
    (∀ lost e sl v, s.lc.tx = some (.event lost e) → s.lc.slots = [sl] → s.lc.gateClosed = false →
      s.lc.refusal = none → sl.kind = .hostState → sl.phase = .waiting → hostViewOf (u8 sl.payload 0) = some v →
      ∃ t : State, exec .txFrameDone s = .next t ∧ t.spu.host = v ∧
        ∃ r, t.lc.tx = some (.reply .hostState sl.tag r) ∧ r.result = .ok)

/-- An idle transmitter starts the reply or the refusal that became ready first. Among replies that became ready at one
moment the one whose request was accepted first goes (the slots are listed in the order of acceptance), and at equal times a
reply goes before the refusal slot. With neither, the oldest event starts unless the host is SUSPENDED or OFF, its entry
leaving the queue and its header taking the lost mark. What is started is SENDING from then on, and nothing else changes
(R181 to R183, R190). -/
def Obligations.TransmitterChoosesByReadiness : Prop :=
  ∀ s : State, s.lc.tx = none →
    let sends : Slot → Reply → State := fun x r =>
      { s with
        lc := { s.lc with
          slots := s.lc.slots.map fun y => if y.place = x.place then { y with phase := .sending } else y
          tx := some (.reply x.kind x.tag r) } }
    let refuses : Refused → State := fun rf =>
      { s with lc := { s.lc with refusal := some { rf with sending := true }, tx := some (.refusal rf.item) } }
    (∀ sl r n, sl ∈ s.lc.slots → sl.phase = .ready r n →
      (∃ before x after rx m, s.lc.slots = before ++ x :: after ∧ x.phase = .ready rx m ∧ m ≤ n ∧
        (∀ y ∈ before, ∀ ry k, y.phase = .ready ry k → m < k) ∧ (∀ y ∈ after, ∀ ry k, y.phase = .ready ry k → m ≤ k) ∧
        (∀ rf, s.lc.refusal = some rf → rf.sending = false → m ≤ rf.since) ∧ kick s = sends x rx) ∨
      (∃ rf, s.lc.refusal = some rf ∧ rf.sending = false ∧
        (∀ y ∈ s.lc.slots, ∀ ry k, y.phase = .ready ry k → rf.since < k) ∧ kick s = refuses rf)) ∧
    ((∀ sl ∈ s.lc.slots, ∀ r n, sl.phase ≠ .ready r n) → ∀ rf, s.lc.refusal = some rf → rf.sending = false →
      kick s = refuses rf) ∧
    ((∀ sl ∈ s.lc.slots, ∀ r n, sl.phase ≠ .ready r n) → (∀ rf, s.lc.refusal = some rf → rf.sending = true) →
      (∀ e q, s.lc.queue = e :: q →
        if HostView.holdsEvents s.spu.host = true then kick s = s
        else kick s = { s with lc := { s.lc with queue := q, lost := false, tx := some (.event s.lc.lost e) } }) ∧
      (s.lc.queue = [] → kick s = s))

/-! ## The event queue (R187 to R189) -/

/-- What an offer makes of the queue and the lost mark, for a transmitter that is sending a frame (R187 to R189): a class
not granted leaves no trace; a state kind with an entry replaces its content in place; below 24 entries the offer is
appended; at 24 the VECTORS entry makes room, and where there is none the offer is dropped with the lost mark set, VECTORS
itself without it. -/
def Obligations.OffersEnterTheEventQueue : Prop :=
  ∀ (e : Event) (s : State), s.lc.tx.isSome = true →
    let put : List Event → Bool → State := fun q lost => { s with lc := { s.lc with queue := q, lost := lost } }
    (bitHas s.lc.grant e.kind.cls.idx = false → offer e s = s) ∧
    (bitHas s.lc.grant e.kind.cls.idx = true →
      (∀ a x b, e.kind.isState = true → s.lc.queue = a ++ x :: b → x.kind = e.kind →
        (∀ y ∈ a ++ b, y.kind ≠ e.kind) → offer e s = put (a ++ e :: b) s.lc.lost) ∧
      ((e.kind.isState = true → ∀ y ∈ s.lc.queue, y.kind ≠ e.kind) →
        (s.lc.queue.length < 24 → offer e s = put (s.lc.queue ++ [e]) s.lc.lost) ∧
        (24 ≤ s.lc.queue.length → e.kind = .vectors → offer e s = s) ∧
        (24 ≤ s.lc.queue.length → e.kind ≠ .vectors → (∀ y ∈ s.lc.queue, y.kind ≠ .vectors) →
          offer e s = put s.lc.queue true) ∧
        (∀ a x b, 24 ≤ s.lc.queue.length → e.kind ≠ .vectors → s.lc.queue = a ++ x :: b → x.kind = .vectors →
          (∀ y ∈ a, y.kind ≠ .vectors) → offer e s = put (a ++ b ++ [e]) s.lc.lost)))

/-- R189: the event queue holds at most 24 entries and never two undelivered entries of one state kind, and every step
keeps it so. -/
def Obligations.StepKeepsQueueLaw : Prop := ∀ s t : State, lawQueue s → step s = .next t → lawQueue t

/-- R183: no event message is transmitted while the host state view is SUSPENDED or OFF; R180, R181: at most four requests
are held, each in a place of its own; R181: with the reset gate open a request waits only during an event frame and only at or
behind a waiting HOST_STATE, and a save that waits for its commit keeps its TAKEN slot (R197). Every step keeps all of them. -/
def Obligations.StepKeepsHoldAndSlotLaws : Prop :=
  (∀ s t : State, lawHold s → step s = .next t → lawHold t) ∧
  (∀ s t : State, lawSlots s → step s = .next t → lawSlots t) ∧
  (∀ s t : State, lawSlots s → lawSaves s → lawWaiting s → step s = .next t → lawSaves t ∧ lawWaiting t)

/-! ## Requests that LC answers (R185, R186, R191) -/

/-- SUBSCRIBE: with the host's major revision 2 the grant becomes the wanted set (all eight classes are supported), with
another it is emptied and the reply is VERSION; the reply carries the new grant (R185). IDENTIFY replies with the part code
4610, the revision 2.3, the grant, the reset cause and the uptime and changes nothing else; RESET_PART replies OK and closes the reset gate (R185, R191). -/
def Obligations.LinkRequests : Prop :=
  ∀ (tag major minor wanted : Byte) (s : State),
    (Ready .subscribe s →
      exec (.subscribe tag [major, minor, wanted]) s =
        .next (replied .subscribe tag [major, minor, wanted]
          (if major = 2#8 then { result := .ok, content := .subscription wanted }
           else { result := .version, content := .subscription 0 })
          { s with lc := { s.lc with grant := if major = 2#8 then wanted else 0 } })) ∧
    (Ready .identify s →
      exec (.identify tag []) s =
        .next (replied .identify tag []
          { result := .ok, content := .identity 4610 2 3 s.lc.grant s.cm.cause s.cm.uptime } s)) ∧
    (Ready .resetPart s →
      exec (.resetPart tag []) s =
        .next (replied .resetPart tag [] { result := .ok, content := .none }
          { s with lc := { s.lc with gateClosed := true } }))

/-- UNSUBSCRIBE (R186): the mark 0 empties the grant and keeps the queue, the mark 1 also discards the queue and clears the
lost mark, and another mark is refused with BAD_VALUE and changes nothing, whatever the part mode and the host state. -/
def Obligations.UnsubscribeEmptiesTheGrant : Prop :=
  ∀ (tag mark : Byte) (s : State), Ready .unsubscribe s →
    exec (.unsubscribe tag [mark]) s =
      .next (if mark = 0#8 then
          replied .unsubscribe tag [mark] { result := .ok, content := .none } { s with lc := { s.lc with grant := 0 } }
        else if mark = 1#8 then
          replied .unsubscribe tag [mark] { result := .ok, content := .none }
            { s with lc := { s.lc with grant := 0, queue := [], lost := false } }
        else replied .unsubscribe tag [mark] { result := .badValue, content := .none } s)

/-! ## Requests that only read (R16, R56, R75, R98, R110, R140, R161, R172, R174) -/

/-- GET_POSTURE, GET_VECTORS, LIST_BASES, GET_SUPPLY and GET_PEN reply with the records of PE, SFE, BM, SM and PDC as they
stand and change nothing else (R56, R16, R75, R98, R110, R140). -/
def Obligations.SensingBaseAndPenReplies : Prop :=
  ∀ (tag : Byte) (s : State),
    (Ready .getPosture s →
      exec (.getPosture tag []) s =
        .next (replied .getPosture tag []
          { result := .ok
            content := .posture
              { posture := s.pe.posture.value, lock := s.pe.posture.state, fresh := s.pe.fresh, theta := s.pe.theta
                reported := s.pe.reported, computed := s.pe.orient.value, rotationLock := s.pe.rotationLock
                abstain := s.pe.lastAbstain, sequence := s.pe.sequence, serial := s.pe.serial } } s)) ∧
    (Ready .getVectors s →
      exec (.getVectors tag []) s =
        .next (replied .getVectors tag []
          { result := .ok
            content := .vectors
              { vectors :=
                  { displayRaw := s.sfe.dRaw, displayFiltered := s.sfe.dFilter
                    baseRaw := s.sfe.bRaw, baseFiltered := s.sfe.bFilter }
                plausible := s.sfe.dPlausible, moving := s.sfe.moving, lastStatus := s.sfe.lastStatus
                failures := s.sfe.failures, fault := s.sfe.fault, late := s.sfe.late
                depth := s.settings.tuning.depth } } s)) ∧
    (Ready .listBases s →
      exec (.listBases tag []) s =
        .next (replied .listBases tag []
          { result := .ok
            content := .bases
              { state := s.bm.state, stream := if s.bm.active.isSome = true then some s.bm.stream else none
                active := s.bm.active, identity := s.bm.identity, policy := s.settings.basePolicy
                table := s.settings.table, origin := s.det.origin, path := s.det.path, deadline := s.det.deadline
                closing := s.det.closing, outcome := s.det.outcome } } s)) ∧
    (Ready .getSupply s →
      exec (.getSupply tag []) s =
        .next (replied .getSupply tag []
          { result := .ok
            content := .supply
              { vsys := s.sm.vsys, temp := s.sm.temp, penCurrent := s.sm.penCurrent, supply := s.sm.supply
                supplyCandidate := s.sm.supplyCandidate, thermal := s.sm.thermal
                thermalCandidate := s.sm.thermalCandidate, capacity := s.rba.capacity
                base := s.rba.base.map fun c => ⟨c.requested, c.minimum, s.rba.grants.base⟩
                latch := s.rba.latch.map fun c => ⟨c.requested, c.minimum, s.rba.grants.latch⟩
                pen := s.rba.pen.map fun c => ⟨c.requested, c.minimum, s.rba.grants.pen⟩
                total := s.rba.grants.base + s.rba.grants.latch + s.rba.grants.pen } } s)) ∧
    (Ready .getPen s →
      exec (.getPen tag []) s =
        .next (replied .getPen tag []
          { result := .ok
            content := .pen
              { state := s.pdc.state, remembered := s.pdc.remembered, reasons := s.pdc.reasons, fault := s.pdc.fault
                last := s.pdc.last, grant := s.pdc.grant, setpoint := s.pdc.setpoint
                chargeSeconds := s.pdc.chargeMs / 1000 } s.settings.pen } s))

/-- GET_SLEEP, GET_CONDITIONS and GET_HISTORY reply with the records of SPU and CM as they stand and change nothing else;
GET_HISTORY carries up to five records from the start position, newest first (R161, R172, R174). -/
def Obligations.SleepAndConditionReplies : Prop :=
  ∀ (tag : Byte) (s : State),
    (Ready .getSleep s →
      exec (.getSleep tag []) s =
        .next (replied .getSleep tag []
          { result := .ok
            content := .sleep
              { host := s.spu.host, state := s.spu.state, mode := s.spu.mode, advised := s.spu.advised
                lidHolds := s.spu.lid.holds, lidMatured := s.spu.lid.matured
                faceDownHolds := s.spu.faceDown.holds, faceDownMatured := s.spu.faceDown.matured
                supplyHolds := s.spu.supply.holds, supplyMatured := s.spu.supply.matured
                pending := s.spu.pending, causes := s.spu.causes
                attempt := if s.spu.state = .waking then some s.spu.attempt else none
                limit := s.spu.limit, hwake := s.spu.hwake
                policy := s.settings.sleep, wake := s.settings.wake } } s)) ∧
    (Ready .getConditions s →
      exec (.getConditions tag []) s =
        .next (replied .getConditions tag []
          { result := .ok
            content := .conditions
              { live := s.cm.live, latched := s.cm.latched, count := s.cm.ring.length, next := s.cm.next
                cause := s.cm.cause, uptime := s.cm.uptime } } s)) ∧
    (∀ start : Byte, Ready .getHistory s →
      exec (.getHistory tag [start]) s =
        .next (replied .getHistory tag [start]
          { result := .ok
            content := .history s.cm.ring.length start.toNat ((s.cm.ring.reverse.drop start.toNat).take 5) } s))

/-! ## Sensing (Chapter 1) -/

/-- The display read period of a part mode outside a fault (R2). -/
def Sys2Proof.Claims.readMs : PartMode → Nat
  | .active => 20
  | .watch => 160
  | .halt => 0

/-- R2: the period timer restarts at its expiry for the period in force, and an IDLE reader starts a read that has 10 ms;
a READING or STOPPED reader starts none.
The expiry commands carry the rest of their time (notes/assumptions/3.md), and an expiry or completion of nothing changes nothing
(notes/assumptions/8.md). -/
def Obligations.DisplayPeriodExpiry : Prop :=
  ∀ (d : Nat) (s : State), s.held = none →
    let u := runTo d s
    (s.sfe.period = some d →
      exec .displayPeriodExpiry s =
        .next { u with
          sfe := { s.sfe with
            period :=
              if s.spu.mode = .halt then none
              else some (u.now + if s.sfe.fault = true then 1000 else readMs s.spu.mode)
            reader := if s.sfe.reader = .idle then .reading else s.sfe.reader
            readLimit := if s.sfe.reader = .idle then some (u.now + 10) else s.sfe.readLimit } }) ∧
    (s.sfe.period = none → exec .displayPeriodExpiry s = .next s)

/-- The L1 norm test of R7. -/
def Sys2Proof.Claims.inBand (v : Vec3) : Bool :=
  decide (3584 ≤ v.x.natAbs + v.y.natAbs + v.z.natAbs) && decide (v.x.natAbs + v.y.natAbs + v.z.natAbs ≤ 7168)

/-- The filter after a raw sample of depth `k` (R7, R8). -/
def Sys2Proof.Claims.filtered (k : Nat) (v : Vec3) (f : Option Vec3) : Option Vec3 :=
  if inBand v = true then
    some (match f with
      | none => v
      | some f => ⟨f.x + (v.x - f.x) / 2 ^ k, f.y + (v.y - f.y) / 2 ^ k, f.z + (v.z - f.z) / 2 ^ k⟩)
  else f

/-- The base status of R11, the first row that matches. -/
def Sys2Proof.Claims.statusOf (s : State) : BaseStatus :=
  if s.sfe.view = .none then .none
  else if s.sfe.view = .paused then .paused
  else if (match s.sfe.lastArrival with
      | none => true
      | some a => decide (3 * readMs s.spu.mode < s.now - a)) = true then .stale
  else if s.sfe.moving = true then .moving
  else .fresh

/-- The posture classifier, and θ where it makes the hinge computation: the checks of R39 in order, the hinge floor and the
hinge angle of R26 to R28, the shifted edges of R40 and R41, and STAND or TENT of R42. (A FRESH base status comes with both
filters LOADED, R11; a notice without them counts as short of the floor.) -/
def Sys2Proof.Claims.hingeVerdict (tn : Tuning) (p : Posture) (c : Int) (n : Notice) : Verdict Posture × Option Nat :=
  if n.plausible = false then (.abstain .motionD, none)
  else if n.fold = .asserted then (.candidate .tablet, none)
  else if n.status = .none ∨ n.status = .paused then (.abstain .basePaused, none)
  else if n.status = .stale then (.abstain .baseStale, none)
  else if n.status = .moving then (.abstain .motionB, none)
  else
    match n.display, n.base with
    | some d, some b =>
      if max d.y.natAbs d.z.natAbs < tn.hingeFloor ∨ max b.y.natAbs b.z.natAbs < tn.hingeFloor then
        (.abstain .hingeVertical, none)
      else
        let theta := ((2880 - (ang d.z d.y : Int) + (ang b.z b.y : Int) + c) % 5760).toNat
        let mp : Int := tn.postureMargin
        let upright := p = .stand ∨ p = .tent
        let e1 : Int := if p = .laptop then 320 - mp else if p = .tablet then 320 + mp else 320
        let e2 : Int := if p = .laptop then 3200 + mp else if upright then 3200 - mp else 3200
        let e3 : Int := if upright then 5280 + mp else if p = .tablet then 5280 - mp else 5280
        let rests : Posture :=
          if p = .stand then (if b.z.natAbs + tn.standTentMargin < b.y.natAbs then .tent else .stand)
          else if p = .tent then (if b.y.natAbs + tn.standTentMargin < b.z.natAbs then .stand else .tent)
          else if b.z.natAbs < b.y.natAbs then .tent
          else .stand
        (if e3 ≤ theta then .candidate .tablet
          else if theta < e1 ∧ p = .tablet then .candidate .tablet
          else if theta < e1 then .abstain .foldZone
          else if theta < e2 then .candidate .laptop
          else .candidate rests, some theta)
    | _, _ => (.abstain .hingeVertical, none)

/-- The orientation classifier (R50): the tilt floor with its face result (R30), ψ of R31, the hold test of R51 for an edge
orientation, and the sector index. (A plausible sample leaves the display filter LOADED, R7, R8.) -/
def Sys2Proof.Claims.tiltVerdict (tn : Tuning) (o : Orientation) (n : Notice) : Verdict Orientation :=
  match n.plausible, n.display with
  | true, some d =>
    let floor := if o = .faceUp ∨ o = .faceDown then tn.tiltFloor + 256 else tn.tiltFloor
    let psi := ang d.y d.x
    let holds : Nat → Prop := fun centre =>
      min ((psi : Int) - centre).natAbs (5760 - ((psi : Int) - centre).natAbs) ≤ 720 + tn.orientMargin
    let sector := (psi + 720) / 1440 % 4
    if max d.x.natAbs d.y.natAbs < floor then .candidate (if d.z < 0 then .faceDown else .faceUp)
    else if (o = .landscape ∧ holds 0) ∨ (o = .portrait ∧ holds 1440) ∨ (o = .landscapeFlipped ∧ holds 2880) ∨
      (o = .portraitFlipped ∧ holds 4320) then .candidate o
    else if sector = 0 then .candidate .landscape
    else if sector = 1 then .candidate .portrait
    else if sector = 2 then .candidate .landscapeFlipped
    else .candidate .portraitFlipped
  | _, _ => .abstain .motionD

/-- A lock machine after a verdict: an abstention, HELD and HALTED leave it (R43, R47); a LOCKED machine ends its run at a
candidate that is its value (R46); any other candidate extends the run it is pending in or starts one of its own, and a run
that reaches the count of the state sets the value, with the machine LOCKED (R45, R46). -/
def Sys2Proof.Claims.lockTakes {α : Type} [DecidableEq α] (acquire change : Nat) (v : Verdict α) (l : Lock α) : Lock α :=
  match v with
  | .abstain _ => l
  | .candidate c =>
    let run := if l.pending = some c then l.run + 1 else 1
    if l.state = .held ∨ l.state = .halted then l
    else if l.state = .locked ∧ c = l.value then { l with pending := none, run := 0 }
    else if (if l.state = .acquiring then acquire else change) ≤ run then
      { state := .locked, value := c, pending := none, run := 0 }
    else { l with pending := some c, run := run }

/-- The reported orientation, the first row of R52 that matches. -/
def Sys2Proof.Claims.shown (p : Pe) : Orientation :=
  if p.posture.value = .laptop then .landscape
  else if p.posture.value = .closed then p.closedFreeze
  else if p.rotationLock = true then p.lockValue
  else p.orient.value

/-- PE's record after a sample notice: the sequence number (R38), the lock machines under their classifiers' verdicts (R38,
R43), θ and its current mark (R21), the last abstain reason (R43), the abstain run and the fresh flag (R44), and the reported
orientation (R52). -/
def Sys2Proof.Claims.noticed (n : Notice) (tn : Tuning) (p : Pe) : Pe :=
  let hinge := hingeVerdict tn p.posture.value p.offset n
  let classified := p.posture.state = .acquiring ∨ p.posture.state = .locked
  let reason : Abstain :=
    if classified then (match hinge.1 with | .candidate _ => .none | .abstain r => r)
    else if n.plausible = true then .none else .motionD
  let yields : Bool :=
    if classified then (match hinge.1 with | .candidate _ => true | .abstain _ => false) else n.plausible
  let run := if yields = true then 0 else min 250 (p.abstainRun + 1)
  let q : Pe :=
    { p with
      sequence := p.sequence + 1
      posture := if classified then lockTakes tn.postureAcquire tn.postureChange hinge.1 p.posture else p.posture
      orient := lockTakes tn.orientAcquire tn.orientChange (tiltVerdict tn p.orient.value n) p.orient
      theta := if classified then (match hinge.2 with | some a => some a | none => p.theta) else p.theta
      thetaCurrent := decide classified && hinge.2.isSome
      lastAbstain := reason
      abstainRun := run
      fresh := if yields = true then true else if tn.staleLimit ≤ run then false else p.fresh }
  { q with reported := shown q }

/-- The condition of a sleep trigger over a posture view and a supply band (R147, R148): LID while P is CLOSED, FACE_DOWN for
a settled TABLET or DETACHED reported face down on fresh samples, SUPPLY in CRITICAL; a disabled trigger's never holds. -/
def Sys2Proof.Claims.condition (w : SleepPolicy) (v : PostureView) (band : Supply) (tr : Trigger) : Bool :=
  match tr with
  | .lid => decide (w.lid = .enabled ∧ v.posture = .closed)
  | .faceDown =>
    decide (w.faceDown = .enabled ∧ (v.posture = .tablet ∧ v.lock = .locked ∨ v.posture = .detached ∧ v.lock = .held) ∧
      v.orientLock = .locked ∧ v.fresh = true ∧ v.reported = .faceDown)
  | .supply => decide (w.supply = .enabled ∧ band = .critical)

/-- A trigger has been evaluated, and its condition now holds or not (R147, R150): unchanged it leaves the trigger's record;
one that begins starts the timer for its time, or, SUPPLY and a lid grace of 0, matures at once and advises an awake host; one
that ends leaves the trigger idle and its reason out of the advised set, and with the last reason SPU is AWAKE again and
offers ADVICE_WITHDRAWN. -/
def Sys2Proof.Claims.triggerMoves (tr : Trigger) (holds : Bool) (w : SleepPolicy) (u t : State) : Prop :=
  let old := triggerRec tr u.spu
  let new := triggerRec tr t.spu
  let time := match tr with | .lid => w.lidGrace | .faceDown => w.faceDownTime | .supply => 0
  let sends : Event → Prop := fun e =>
    u.lc.tx.isSome = true → bitHas u.lc.grant EventClass.sleep.idx = true → Queued e t
  (holds = old.holds → new = old) ∧
  (holds = true → old.holds = false →
    (time ≠ 0 → new = { holds := true, timer := some (u.now + time), matured := false }) ∧
    (time = 0 → new = { old with holds := true, timer := none, matured := true } ∧
      (u.spu.state = .awake ∨ u.spu.state = .advised →
        bitHas t.spu.advised tr.idx = true ∧ t.spu.state = .advised ∧
        ∃ set : BitVec 3, bitHas set tr.idx = true ∧ sends (.sleepAdvice (bitAdd 0 tr.idx) set)))) ∧
  (holds = false → old.holds = true →
    new = { holds := false, timer := none, matured := false } ∧ bitHas t.spu.advised tr.idx = false ∧
    (u.spu.state = .advised → bitHas u.spu.advised tr.idx = true → t.spu.advised = 0 →
      t.spu.state = .awake ∧ sends .adviceWithdrawn))

/-- A wake episode has begun with these causes (R156). -/
def Sys2Proof.Claims.episodeBegun (causes : BitVec 6) (u t : State) : Prop :=
  t.spu.state = .waking ∧ t.spu.causes = causes ∧ t.spu.attempt = 1 ∧
  t.spu.limit = some u.settings.sleep.attemptLimit ∧ t.spu.hwake = true ∧ t.spu.gap = none ∧
  t.spu.wake = some (u.now + u.settings.sleep.wakeTimeout) ∧ t.spu.mode = .active

/-- A SAMPLE completion with the discard mark clear and DSENS_FAULT not live, outside HALT: the failure count goes to 0, the
sample is judged and filtered, the base status is judged, and PE takes the notice: its whole record is as the rules make it,
its freshness record and θ among it, the LID and FACE_DOWN triggers follow it, and nothing else of the part changes but what
these hand on. The classifiers and the lock machines are written out from R26 to R31, R39 to R43, R45 to R47, R50 and R51. A
change of P that counts as the cause POSTURE_CHANGED in ASLEEP begins a wake episode, whose change of part mode leaves the two
records alone where the stream needs no resumption (R3, R7, R8, R11, R12, R15, R16, R21, R38, R44, R52, R147, R148, R150, R154,
R156). -/
def Obligations.DisplaySampleIsProcessed : Prop :=
  ∀ (x y z : Int) (s : State), s.held = none → s.sfe.reader = .reading → s.sfe.discard = false → s.sfe.fault = false →
    s.spu.mode ≠ .halt →
    let v : Vec3 := ⟨x, y, z⟩
    let st := statusOf s
    let d := filtered s.settings.tuning.depth v s.sfe.dFilter
    let tn := s.settings.tuning
    let n : Notice :=
      { raw := v, plausible := inBand v, display := d, status := st, base := s.sfe.bFilter
        lid := s.sfe.lid.level, fold := s.sfe.fold.level }
    let p := noticed n tn s.pe
    let f : Sfe :=
      { s.sfe with
        reader := .idle, readLimit := none, failures := 0, dRaw := some v, dPlausible := some (inBand v), dFilter := d
        lastStatus := some st, staleRun := if st = .stale then min 25 (s.sfe.staleRun + 1) else 0
        late := s.sfe.late || (decide (st = .stale) && decide (24 ≤ s.sfe.staleRun))
        divider := if tn.divider ≤ s.sfe.divider + 1 then 0 else s.sfe.divider + 1 }
    let parts : List Part :=
      [.reader, .display, .baseSamples, .late, .divider, .locks, .freshness, .abstain, .hinge, .causes, .live, .latched,
        .history] ++ viewParts
    let entry := s.settings.wake.postureChanged
    let wakes := s.spu.state = .asleep ∧ p.posture.value ≠ s.pe.posture.value ∧ entry.enable = .enabled ∧
      bitHas entry.mask p.posture.value.code = true
    (¬ wakes →
      ∃ t : State, exec (.displayReadSample x y z) s = .next t ∧ t.sfe = f ∧ t.pe = p ∧
        (∀ tr : Trigger, tr ≠ .supply →
          triggerMoves tr (condition s.settings.sleep (viewOf p) s.sm.supply tr) s.settings.sleep s t) ∧
        Changes parts s t) ∧
    (wakes →
      ∃ t : State, exec (.displayReadSample x y z) s = .next t ∧
        episodeBegun (bitAdd 0 WakeCause.postureChanged.idx) s t ∧
        (t.pe.sequence, t.pe.theta, t.pe.lastAbstain, t.pe.posture.value, t.pe.orient.value) =
          (p.sequence, p.theta, p.lastAbstain, p.posture.value, p.orient.value) ∧
        ((s.bm.state = .attached ∨ s.bm.state = .detachAsked → s.bm.stream = .running) →
          t.pe = p ∧
          t.sfe = { f with period := if s.spu.mode = .active then s.sfe.period else some (s.now + 20) }) ∧
        Changes (parts ++ wakeParts) s t)

/-- The recovery (R5, R38, R49): the first SAMPLE taken while the fault flag is set clears the flag and the live condition, ends the
halt, empties the display filter and then processes the sample; an implausible one leaves the filter EMPTY. -/
def Obligations.RecoveryEndsTheHalt : Prop :=
  ∀ (x y z : Int) (s : State), s.held = none → s.sfe.reader = .reading → s.sfe.discard = false → s.sfe.fault = true →
    s.spu.mode ≠ .halt →
    ∃ t : State, exec (.displayReadSample x y z) s = .next t ∧ t.sfe.fault = false ∧ t.sfe.failures = 0 ∧
      t.sfe.dFilter = (if inBand ⟨x, y, z⟩ = true then some ⟨x, y, z⟩ else none) ∧
      t.sfe.period = some (s.now + readMs t.spu.mode) ∧ bitHas t.cm.live Cond.dsensFault.idx = false ∧
      t.pe.halt = false ∧ t.pe.orient.state ≠ .halted ∧ t.pe.posture.state ≠ .halted ∧
      t.pe.sequence = s.pe.sequence + 1

/-- R3, R4, R6: a failure that does not bring the count to 3, or comes while the fault flag is set, counts and changes no
other state; the third raises DSENS_FAULT with its code, halts PE and sets the 1000 ms period; a completion whose discard
mark is set is dropped; without a read in flight there is no completion.
The expiry commands carry the rest of their time (notes/assumptions/3.md), and an expiry or completion of nothing changes nothing
(notes/assumptions/8.md). -/
def Obligations.DisplayReadFailures : Prop :=
  ∀ (c : ReadFailure) (x y z : Int) (s : State), s.held = none →
    let failed : State → State := fun u =>
      { u with sfe := { u.sfe with reader := .idle, readLimit := none, failures := min 3 (u.sfe.failures + 1) } }
    let dropped : State → State := fun u =>
      { u with
        sfe := { u.sfe with
          discard := false, readLimit := none, reader := if u.spu.mode = .halt then .stopped else .idle } }
    let halted : Nat → State → State → Prop := fun code u t =>
      t.sfe.fault = true ∧ t.sfe.failures = 3 ∧ t.pe.halt = true ∧ t.pe.orient.state = .halted ∧
      t.pe.orient.value = .unknown ∧
      ((u.pe.posture.state = .acquiring ∨ u.pe.posture.state = .locked) →
        t.pe.posture.state = .halted ∧ t.pe.posture.value = .unknown) ∧
      (u.spu.mode ≠ .halt → t.sfe.period = some (u.now + 1000)) ∧
      (bitHas u.cm.live Cond.dsensFault.idx = false → Rose .dsensFault code u t)
    (s.sfe.discard = true →
      exec (.displayReadFailure c) s = .next (dropped s) ∧ exec (.displayReadSample x y z) s = .next (dropped s) ∧
      (∀ d, s.sfe.readLimit = some d → exec .displayReadTimeout s = .next (dropped (runTo d s)))) ∧
    (s.sfe.discard = false → s.sfe.reader = .reading →
      ((s.sfe.failures + 1 < 3 ∨ s.sfe.fault = true) →
        exec (.displayReadFailure c) s = .next (failed s) ∧
        (∀ d, s.sfe.readLimit = some d → exec .displayReadTimeout s = .next (failed (runTo d s)))) ∧
      (3 ≤ s.sfe.failures + 1 → s.sfe.fault = false →
        (∃ t : State, exec (.displayReadFailure c) s = .next t ∧ halted (match c with | .noAck => 1 | .busError => 2) s t) ∧
        (∀ d, s.sfe.readLimit = some d → ∃ t : State, exec .displayReadTimeout s = .next t ∧ halted 3 (runTo d s) t))) ∧
    (s.sfe.discard = false → s.sfe.reader ≠ .reading →
      exec (.displayReadFailure c) s = .next s ∧ exec .displayReadTimeout s = .next s ∧
      exec (.displayReadSample x y z) s = .next s)

/-- R17: a change of a raw magnet level starts the hold time from STEADY and cancels it from CHANGING; the expiry makes the
level the debounced one. The owners that a debounced change of FOLDH is reported to do nothing at it (R18).
The expiry commands carry the rest of their time (notes/assumptions/3.md), and an expiry or completion of nothing changes nothing
(notes/assumptions/8.md). -/
def Obligations.MagnetInputsAreDebounced : Prop :=
  ∀ (m : Magnet) (l : Level) (s : State), s.held = none →
    let put : MagnetRec → State → State := fun r u => { u with sfe := setMagnet m r u.sfe }
    let r := magnetRec m s.sfe
    (l = r.raw → exec (.magnetLevelChange m l) s = .next s) ∧
    (l ≠ r.raw → r.debounce = .steady →
      exec (.magnetLevelChange m l) s =
        .next (put { r with
          raw := l, debounce := .changing, hold := s.settings.tuning.hall
          timer := some (s.now + s.settings.tuning.hall) } s)) ∧
    (l ≠ r.raw → r.debounce = .changing →
      exec (.magnetLevelChange m l) s = .next (put { r with raw := l, debounce := .steady, timer := none } s)) ∧
    (∀ d, r.timer = some d → m = .fold →
      exec (.hallDebounceExpiry m) s =
        .next (put { r with level := r.raw, debounce := .steady, timer := none } (runTo d s))) ∧
    (r.timer = none → exec (.hallDebounceExpiry m) s = .next s)

/-- R18, R35, R36, R52, R147, R153: a debounced assertion of LIDH forces CLOSED with the orientation then reported frozen,
ends an asked detach, cancels the lid-confirm timer and begins the LID trigger; a debounced release empties both filters, ends
the forcing by the lid and the LID trigger and, in a sleeping state with LID_OPENED enabled, starts the lid-confirm timer, or
with a confirm time of 0 is that cause at once. (Whether P in the mask of the cause is taken before or after the release moves
it is open: notes/assumptions/1.md.)
The expiry carries the rest of its time (notes/assumptions/3.md). -/
def Obligations.LidMovesReachTheirOwners : Prop :=
  ∀ (d : Nat) (s : State), s.held = none → s.sfe.lid.timer = some d →
    let u := runTo d s
    let w := s.settings.sleep
    let opened := s.settings.wake.lidOpened
    let sleeping := s.spu.state = .suspending ∨ s.spu.state = .asleep ∨ s.spu.state = .waking
    let told := s.spu.lid.holds = decide (w.lid = .enabled ∧ s.pe.posture.value = .closed)
    let next : Posture := if BmState.hinged s.bm.state = true then .unknown else .detached
    (s.sfe.lid.raw = .asserted → s.pe.situation ≠ .lid →
      ∃ t : State, exec (.hallDebounceExpiry .lid) s = .next t ∧ t.sfe.lid.level = .asserted ∧ t.sfe.lid.timer = none ∧
        t.pe.situation = .lid ∧ t.pe.posture = { state := .held, value := .closed, pending := none, run := 0 } ∧
        (s.pe.posture.value ≠ .closed → s.pe.reported = shown s.pe →
          t.pe.closedFreeze = s.pe.reported ∧ t.pe.reported = s.pe.reported) ∧
        t.spu.lidConfirm = none ∧ (told → triggerMoves .lid (decide (w.lid = .enabled)) w u t) ∧
        (s.bm.state = .detachAsked → s.det.unpowered = false →
          t.bm.state = .attached ∧ t.det.outcome = some .cancelled)) ∧
    (s.sfe.lid.raw = .released → s.pe.situation = .lid →
      ∃ t : State, exec (.hallDebounceExpiry .lid) s = .next t ∧ t.sfe.lid.level = .released ∧ t.sfe.lid.timer = none ∧
        t.sfe.dFilter = none ∧ t.sfe.bFilter = none ∧ t.pe.fresh = false ∧
        (BmState.hinged s.bm.state = true → t.pe.situation = .none ∧ t.pe.posture.value = .unknown ∧
          t.pe.posture.state = if s.pe.halt = true then .halted else .acquiring) ∧
        (BmState.hinged s.bm.state = false → t.pe.situation = .noBase ∧ t.pe.posture.value = .detached ∧
          t.pe.posture.state = .held) ∧
        (told → triggerMoves .lid false w u t) ∧
        (sleeping → opened.enable = .enabled → w.lidConfirm ≠ 0 → t.spu.lidConfirm = some (u.now + w.lidConfirm)) ∧
        (sleeping → opened.enable = .enabled → w.lidConfirm = 0 →
          t.spu.lidConfirm = none ∧
          (bitHas opened.mask s.pe.posture.value.code = true → bitHas opened.mask next.code = true →
            (s.spu.state = .suspending → bitHas t.spu.pending WakeCause.lidOpened.idx = true) ∧
            (s.spu.state ≠ .suspending →
              t.spu.state = .waking ∧ bitHas t.spu.causes WakeCause.lidOpened.idx = true))) ∧
        (¬ sleeping ∨ opened.enable = .disabled → t.spu.lidConfirm = s.spu.lidConfirm))

/-! ## Angles, postures and rotation (Chapters 2 and 3) -/

/-- What R22 to R24 make of ANG: in the first octant it is the octant estimate of R23 of the ratio of R22, exchanging the
components reflects it inside the quadrant, and each other quadrant is a reflection of the first (R24), so that every value is
in 0..5759 and the axes and the diagonals have their exact values. The hinge angle of R28 is the difference of the two tilts of
R27 with C, in 0..5759, and adding an amount to C adds the same amount to it modulo 5760 (R29). -/
def Obligations.AngleArithmetic : Prop :=
  (∀ p q : Int, ang p q < 5760) ∧
  (∀ p q : Int, 0 ≤ q → q ≤ p → 0 < p →
    let t := q * 4096 / p
    (ang p q : Int) = (t * (2949120 + 250 * (4096 - t)) + 8388608) / 16777216) ∧
  (∀ p : Int, 0 < p → ang p 0 = 0 ∧ ang 0 p = 1440 ∧ ang (-p) 0 = 2880 ∧ ang 0 (-p) = 4320 ∧
    ang p p = 720 ∧ ang (-p) p = 2160 ∧ ang (-p) (-p) = 3600 ∧ ang p (-p) = 5040) ∧
  (∀ p q : Int, 0 < p → 0 < q → ang p q + ang q p = 1440) ∧
  (∀ p q : Int, (p ≠ 0 ∨ q ≠ 0) → ang (-p) (-q) = (ang p q + 2880) % 5760) ∧
  (∀ p q : Int, ang p (-q) = (5760 - ang p q) % 5760) ∧
  (∀ (d b : Vec3) (c k : Int), hingeAngle d b c < 5760 ∧
    (hingeAngle d b c : Int) = (2880 - (ang d.z d.y : Int) + (ang b.z b.y : Int) + c) % 5760 ∧
    (hingeAngle d b (c + k) : Int) = ((hingeAngle d b c : Int) + k) % 5760)

/-- SET_ROTATION_LOCK (R53): OFF clears the lock, ON from OFF captures the reported orientation as the lock value, ON from
ON keeps it; the reported orientation follows R52, the reply carries both, and another mark is BAD_VALUE. -/
def Obligations.RotationLockRequest : Prop :=
  ∀ (tag mark : Byte) (s : State), Ready .setRotationLock s →
    (mark.toNat ≤ 1 →
      let on := decide (mark = 1#8)
      let value := if on = true ∧ s.pe.rotationLock = false then s.pe.reported else s.pe.lockValue
      let reported := shown { s.pe with rotationLock := on, lockValue := value }
      ∃ t : State, exec (.setRotationLock tag [mark]) s = .next t ∧
        t.pe = { s.pe with rotationLock := on, lockValue := value, reported := reported } ∧
        Answered .setRotationLock tag { result := .ok, content := .rotation on reported } t ∧
        Changes (([.rotation, .assembler] : List Part) ++ viewParts) s t) ∧
    (1 < mark.toNat →
      exec (.setRotationLock tag [mark]) s =
        .next (replied .setRotationLock tag [mark] { result := .badValue, content := .none } s))

/-- The ranges of the tuning record (3.9). -/
def Sys2Proof.Claims.tuningInRange (t : Tuning) : Prop :=
  t.depth ≤ 4 ∧ (10 ≤ t.hall ∧ t.hall ≤ 250) ∧ (1 ≤ t.divider ∧ t.divider ≤ 50) ∧
  (256 ≤ t.hingeFloor ∧ t.hingeFloor ≤ 3072) ∧ (256 ≤ t.tiltFloor ∧ t.tiltFloor ≤ 3072) ∧
  (1 ≤ t.postureAcquire ∧ t.postureAcquire ≤ 15) ∧ (1 ≤ t.postureChange ∧ t.postureChange ≤ 15) ∧
  (1 ≤ t.orientAcquire ∧ t.orientAcquire ≤ 15) ∧ (1 ≤ t.orientChange ∧ t.orientChange ≤ 15) ∧
  t.postureMargin ≤ 320 ∧ t.standTentMargin ≤ 2048 ∧ t.orientMargin ≤ 480 ∧ (10 ≤ t.staleLimit ∧ t.staleLimit ≤ 250)

/-- SET_TUNING replaces the whole record, each field clamped to the nearest end of its range, and says so; a new filter depth
empties both filters and starts both lock machines over, a new divider restarts the vectors count, a run of either machine that
its new count no longer allows is cleared, and a stale limit not above the abstain run clears the fresh flag (R19, R33, R48,
R58). -/
def Obligations.TuningRequest : Prop :=
  ∀ (tag : Byte) (p : List Byte) (s : State), Ready .setTuning s → p.length = 18 →
    let asked : Tuning :=
      { depth := u8 p 0, hall := u8 p 1, divider := u8 p 2, hingeFloor := u16 p 3, tiltFloor := u16 p 5
        postureAcquire := u8 p 7, postureChange := u8 p 8, orientAcquire := u8 p 9, orientChange := u8 p 10
        postureMargin := u16 p 11, standTentMargin := u16 p 13, orientMargin := u16 p 15, staleLimit := u8 p 17 }
    let c : Tuning :=
      { depth := min 4 asked.depth, hall := max 10 (min 250 asked.hall), divider := max 1 (min 50 asked.divider)
        hingeFloor := max 256 (min 3072 asked.hingeFloor), tiltFloor := max 256 (min 3072 asked.tiltFloor)
        postureAcquire := max 1 (min 15 asked.postureAcquire), postureChange := max 1 (min 15 asked.postureChange)
        orientAcquire := max 1 (min 15 asked.orientAcquire), orientChange := max 1 (min 15 asked.orientChange)
        postureMargin := min 320 asked.postureMargin, standTentMargin := min 2048 asked.standTentMargin
        orientMargin := min 480 asked.orientMargin, staleLimit := max 10 (min 250 asked.staleLimit) }
    let old := s.settings.tuning
    let inForce : Nat → Nat → LockState → Nat := fun acquire change st => if st = .acquiring then acquire else change
    tuningInRange c ∧ (tuningInRange asked → c = asked) ∧
    ∃ t : State, exec (.setTuning tag p) s = .next t ∧ t.settings = { s.settings with tuning := c } ∧
      Answered .setTuning tag { result := if c = asked then .ok else .clamped, content := .tuning c } t ∧
      (c.depth ≠ old.depth → t.sfe.dFilter = none ∧ t.sfe.bFilter = none ∧ t.pe.fresh = false ∧ t.pe.abstainRun = 0 ∧
        (s.pe.posture.state = .acquiring ∨ s.pe.posture.state = .locked →
          t.pe.posture = { state := .acquiring, value := s.pe.posture.value, pending := none, run := 0 }) ∧
        (s.pe.orient.state = .acquiring ∨ s.pe.orient.state = .locked →
          t.pe.orient = { state := .acquiring, value := s.pe.orient.value, pending := none, run := 0 })) ∧
      (c.depth = old.depth → t.sfe.dFilter = s.sfe.dFilter ∧ t.sfe.bFilter = s.sfe.bFilter ∧
        t.pe.abstainRun = s.pe.abstainRun ∧ t.pe.fresh = (s.pe.fresh && decide (s.pe.abstainRun < c.staleLimit)) ∧
        t.pe.posture =
          (if inForce c.postureAcquire c.postureChange s.pe.posture.state ≤ s.pe.posture.run then
            { s.pe.posture with pending := none, run := 0 }
          else s.pe.posture) ∧
        t.pe.orient =
          (if inForce c.orientAcquire c.orientChange s.pe.orient.state ≤ s.pe.orient.run then
            { s.pe.orient with pending := none, run := 0 }
          else s.pe.orient)) ∧
      t.sfe.divider = (if c.divider = old.divider then s.sfe.divider else 0) ∧
      t.pe.posture.value = s.pe.posture.value ∧
      Changes (([.tuning, .display, .baseSamples, .divider, .locks, .freshness, .assembler] : List Part) ++ viewParts) s t

/-- PE's forcing situation is the one of R35, and the posture machine stands as R36 says: HELD at the forced value while
there is a situation, never HELD and never at a forced value while there is none. -/
def Sys2Proof.Claims.forcingHolds (s : State) : Prop :=
  s.held = none →
    s.pe.situation = situationNow s ∧
    (s.pe.situation = .lid → s.pe.posture.state = .held ∧ s.pe.posture.value = .closed) ∧
    (s.pe.situation = .noBase → s.pe.posture.state = .held ∧ s.pe.posture.value = .detached) ∧
    (s.pe.situation = .none →
      s.pe.posture.state ≠ .held ∧ s.pe.posture.value ≠ .closed ∧ s.pe.posture.value ≠ .detached)

/-- R35, R36: every step keeps the forced postures, and where they hold P is CLOSED while LIDH is asserted, and otherwise
DETACHED exactly when BM is in none of ATTACHED, DETACH_ASKED and RELEASING. R47: with counts of at least 1 in the tuning
record, the run of each lock machine is below the count in force, and 0 without a pending candidate. -/
def Obligations.StepKeepsPostureLaws : Prop :=
  (∀ s t : State, forcingHolds s → step s = .next t → forcingHolds t) ∧
  (∀ s : State, s.held = none → forcingHolds s → lawForced s) ∧
  (∀ s t : State, tuningInRange s.settings.tuning → lawRuns s → step s = .next t →
    tuningInRange t.settings.tuning ∧ lawRuns t)

/-! ## The keyboard base (Chapter 4) -/

/-- Records from the base: BASE_SAMPLE is taken while the stream is RUNNING and feeds the base filter, its first one after a
late run clears BASE_SAMPLES_LATE and empties the filter first (R10, R7, R8); QUIESCED and the end of the wait for it pause
a PAUSING stream (R71); a discarded record has no effect (R63).
The expiry commands carry the rest of their time (notes/assumptions/3.md), and an expiry or completion of nothing changes nothing
(notes/assumptions/8.md). -/
def Obligations.BaseLinkRecords : Prop :=
  ∀ (x y z : Int) (s : State), s.held = none →
    let v : Vec3 := ⟨x, y, z⟩
    let k := s.settings.tuning.depth
    let streams := BmState.hasBase s.bm.state = true ∧ s.bm.stream = .running
    let paused : State → State := fun u =>
      { u with bm := { u.bm with stream := .paused, quiesce := none }, sfe := { u.sfe with view := .paused } }
    (streams → s.sfe.late = false →
      exec (.baseSample x y z) s =
        .next { s with
          sfe := { s.sfe with
            bRaw := some v, lastArrival := some s.now, moving := !inBand v, bFilter := filtered k v s.sfe.bFilter } }) ∧
    (streams → s.sfe.late = true →
      ∃ t : State, exec (.baseSample x y z) s = .next t ∧
        t.sfe =
          { s.sfe with
            late := false, bRaw := some v, lastArrival := some s.now, staleRun := 0, moving := !inBand v
            bFilter := filtered k v none } ∧
        bitHas t.cm.live Cond.baseSamplesLate.idx = false ∧ t.pe.fresh = false ∧
        Changes (([.baseSamples, .late, .live, .locks, .freshness] : List Part) ++ viewParts) s t) ∧
    (¬ streams → exec (.baseSample x y z) s = .next s) ∧
    (BmState.hasBase s.bm.state = true → s.bm.stream = .pausing →
      exec .quiesced s = .next (paused s) ∧
      (∀ d, s.bm.quiesce = some d → exec .quiesceTimerExpiry s = .next (paused (runTo d s)))) ∧
    (s.bm.stream ≠ .pausing → exec .quiesced s = .next s) ∧
    (s.bm.quiesce = none → exec .quiesceTimerExpiry s = .next s) ∧
    exec .baseLinkRecordDiscard s = .next s

/-- R60, R61, R62: BPRES starts the settle time from ABSENT and ends it in SETTLING; in the later states its release starts
the 20 ms loss time and its return cancels it; the end of the settle time files the 120 mA claim, and a granted claim powers
the base and asks for its identity.
The expiry commands carry the rest of their time (notes/assumptions/3.md), and an expiry or completion of nothing changes nothing
(notes/assumptions/8.md). -/
def Obligations.BasePresence : Prop :=
  ∀ (l : Level) (s : State), s.held = none →
    (l = s.bm.bpres → exec (.bpresChange l) s = .next s) ∧
    (l ≠ s.bm.bpres → s.bm.state = .absent → l = .asserted →
      ∃ t : State, exec (.bpresChange l) s = .next t ∧
        t.bm = { s.bm with bpres := l, state := .settling, settle := some (s.now + 100) } ∧
        Changes (([.presence, .bmState] : List Part) ++ reportParts) s t) ∧
    (l ≠ s.bm.bpres → s.bm.state = .settling → l = .released →
      ∃ t : State, exec (.bpresChange l) s = .next t ∧ t.bm = { s.bm with bpres := l, state := .absent, settle := none } ∧
        Changes (([.presence, .bmState] : List Part) ++ reportParts) s t) ∧
    (l ≠ s.bm.bpres → ((s.bm.state = .absent ∧ l = .released) ∨ (s.bm.state = .settling ∧ l = .asserted)) →
      exec (.bpresChange l) s = .next { s with bm := { s.bm with bpres := l } }) ∧
    (l ≠ s.bm.bpres → s.bm.state ≠ .absent → s.bm.state ≠ .settling →
      exec (.bpresChange l) s =
        .next { s with
          bm := { s.bm with bpres := l, loss := match l with | .released => some (s.now + 20) | .asserted => none } }) ∧
    (∀ d, s.bm.settle = some d → s.bm.state = .settling →
      ∃ t : State, exec .baseSettleTimerExpiry s = .next t ∧ t.bm.settle = none ∧
        t.rba.base = some { requested := 120, minimum := 120 } ∧
        (120 ≤ s.rba.capacity →
          t.bm.state = .identifying ∧ t.bm.bpwr = true ∧ t.bm.phase = some .query1 ∧ t.bm.queryOut = true ∧
          t.bm.query = some ((runTo d s).now + 500) ∧ t.btx = s.btx ++ [.identQuery] ∧ t.rba.grants.base = 120) ∧
        (s.rba.capacity < 120 →
          t.bm.state = .powering ∧ t.bm.bpwr = false ∧ t.bm.phase = none ∧ t.btx = s.btx ∧ t.rba.grants.base = 0) ∧
        Changes (([.now, .presence, .bmState, .identify, .claims] : List Part) ++ reportParts ++ noticeParts) s t) ∧
    (s.bm.state ≠ .settling → exec .baseSettleTimerExpiry s = .next s) ∧
    (s.bm.loss = none → exec .baseGone s = .next s)

/-- R64, R65: QUERY_1 that ends unanswered cycles the base's power for 50 ms, the end of the cycling asks again, and QUERY_2
that ends unanswered fails the base with BASE_ID_FAIL and withdraws its claim.
The expiry commands carry the rest of their time (notes/assumptions/3.md), and an expiry or completion of nothing changes nothing
(notes/assumptions/8.md). -/
def Obligations.IdentificationTimers : Prop :=
  ∀ (d : Nat) (s : State), s.held = none →
    let u := runTo d s
    let st := s.bm.state
    (st = .identifying → s.bm.query = some d → s.bm.phase = some .query1 →
      exec .queryTimerExpiry s =
        .next { u with
          bm := { s.bm with
            queryOut := false, query := none, bpwr := false, phase := some .cycling, cycling := some (u.now + 50) } }) ∧
    (st = .identifying → s.bm.query = some d → s.bm.phase = some .query2 →
      ∃ t : State, exec .queryTimerExpiry s = .next t ∧
        t.bm = { s.bm with
          queryOut := false, query := none, bpwr := false, state := .failed, phase := none } ∧
        t.rba.base = none ∧ (bitHas s.cm.live Cond.baseIdFail.idx = false → Rose .baseIdFail 2 u t) ∧
        Changes (([.now, .bmState, .identify, .claims, .latched, .history] : List Part) ++ reportParts ++ noticeParts) s t) ∧
    (st = .identifying → s.bm.cycling = some d →
      exec .cyclingTimerExpiry s =
        .next { u with
          bm := { s.bm with
            cycling := none, bpwr := true, phase := some .query2, queryOut := true, query := some (u.now + 500) }
          btx := s.btx ++ [.identQuery] }) ∧
    (st ≠ .identifying ∨ s.bm.query = none → exec .queryTimerExpiry s = .next s) ∧
    (st ≠ .identifying ∨ s.bm.cycling = none → exec .cyclingTimerExpiry s = .next s)

/-- A commit has been requested between `s` and `t` (R195): an idle store starts one over the settings of `t`, a busy one
takes the request as pending. -/
def Sys2Proof.Claims.commitAsked (s t : State) : Prop :=
  (s.ss.state = .idle → t.ss.state = .writing ∧ t.ss.attempt = some 1 ∧ t.ss.snapshot = some t.settings) ∧
  (s.ss.state ≠ .idle → t.ss.pending = true ∧ t.ss.state = s.ss.state)

/-- The other entries of the table, at most three (R67, R68). -/
def Sys2Proof.Claims.others (serial : Serial) (s : State) : List BaseEntry :=
  (s.settings.table.filter fun e => e.serial != serial).take 3

/-- An IDENT that answers the query (R66 to R70): the claim becomes min(draw, 200) mA; ungranted, BM goes back to POWERING;
granted, a paired base attaches with its entry at rank 1, a new one is admitted with C = 0 and a commit, or is refused under
REFUSE and loses its power and its claim. An IDENT that answers no query, or of another revision, is ignored (R63). -/
def Obligations.IdentTaken : Prop :=
  ∀ (serial : Serial) (model : BitVec 16) (draw revision : Nat) (s : State), s.held = none →
    let i : Identity := ⟨serial, model, draw, revision⟩
    let amount := min draw 200
    let answers := s.bm.state = .identifying ∧ s.bm.queryOut = true ∧ 1 ≤ revision ∧ revision ≤ 15
    let known := s.settings.table.find? fun e => e.serial == serial
    let attached : Int → State → Prop := fun offset t =>
      t.bm.state = .attached ∧ t.bm.active = some serial ∧ t.bm.identity = some i ∧ t.bm.phase = none ∧
      t.bm.queryOut = false ∧ t.rba.base = some { requested := amount, minimum := amount } ∧
      t.pe.serial = some serial ∧ t.pe.offset = offset ∧ t.sfe.bFilter = none ∧ t.pe.fresh = false ∧
      t.pe.situation = (if s.sfe.lid.level = .asserted then .lid else .none) ∧
      (s.spu.host = .running → s.spu.mode = .active →
        t.bm.stream = .running ∧ t.sfe.view = .running ∧ t.btx = s.btx ++ [.setPeriod 20])
    (answers → amount ≤ s.rba.capacity → ∀ e, known = some e →
      ∃ t : State, exec (.ident serial model draw revision) s = .next t ∧ attached e.offset t ∧
        t.settings.table = { e with model := model } :: others e.serial s ∧
        (t.settings.table ≠ s.settings.table → commitAsked s t) ∧
        (s.lc.tx.isSome = true → bitHas s.lc.grant EventClass.base.idx = true →
          Queued (.baseAttached i 1 e.offset s.bm.newEntry s.bm.evicted) t) ∧
        Changes (([.table, .bmState, .identify, .active, .marks, .claims, .image, .commit] : List Part) ++ reportParts ++ noticeParts)
          s t) ∧
    (answers → amount ≤ s.rba.capacity → known = none → s.settings.basePolicy = .accept →
      ∃ t : State, exec (.ident serial model draw revision) s = .next t ∧ attached 0 t ∧
        t.settings.table = ⟨serial, model, 0⟩ :: others serial s ∧ commitAsked s t ∧
        (s.lc.tx.isSome = true → bitHas s.lc.grant EventClass.base.idx = true →
          Queued (.baseAttached i 1 0 true (s.settings.table[3]?.map (·.serial))) t) ∧
        Changes (([.table, .bmState, .identify, .active, .marks, .claims, .image, .commit] : List Part) ++ reportParts ++ noticeParts)
          s t) ∧
    (answers → amount ≤ s.rba.capacity → known = none → s.settings.basePolicy = .refuse →
      ∃ t : State, exec (.ident serial model draw revision) s = .next t ∧ t.bm.state = .refused ∧ t.bm.bpwr = false ∧
        t.bm.identity = some i ∧ t.bm.queryOut = false ∧ t.rba.base = none ∧
        (s.lc.tx.isSome = true → bitHas s.lc.grant EventClass.base.idx = true →
          Queued (.baseRefused serial model) t) ∧
        Changes (([.bmState, .identify, .claims] : List Part) ++ reportParts ++ noticeParts) s t) ∧
    (answers → s.rba.capacity < amount →
      ∃ t : State, exec (.ident serial model draw revision) s = .next t ∧ t.bm.state = .powering ∧ t.bm.bpwr = false ∧
        t.bm.identity = some i ∧ t.bm.queryOut = false ∧
        t.rba.base = some { requested := amount, minimum := amount } ∧
        Changes (([.presence, .bmState, .identify, .claims] : List Part) ++ reportParts ++ noticeParts) s t) ∧
    (¬ answers → exec (.ident serial model draw revision) s = .next s)

/-- Base-gone by BM's state (R61, R73, R95): a base not yet attached is dropped, and BASE_ID_FAIL falls; an attached one is a
base loss with BASE_LOST; in RELEASING and CLOSING it is the detach, with the outcome DETACHED. Every way BM's base record
goes back to its values in ABSENT, its claims are withdrawn, and P is forced to DETACHED; a base that is present
again by then settles afresh (R61). The expiry carries the rest of its time (notes/assumptions/3.md). -/
def Obligations.BaseGoneByState : Prop :=
  ∀ (d : Nat) (s : State), s.held = none → s.bm.loss = some d →
    let u := runTo d s
    let st := s.bm.state
    let absent : Bm :=
      match s.bm.bpres with
      | .released => Bm.reset
      | .asserted => { Bm.reset with bpres := .asserted, state := .settling, settle := some (u.now + 100) }
    let idle : Det := { s.det with deadline := .none, timer := none, closing := none, unpowered := false, lsol := false }
    let parts : List Part :=
      [.now, .presence, .bmState, .identify, .marks, .active, .attempt, .lsol, .claims] ++ reportParts ++ noticeParts
    let detached : State → Prop := fun t =>
      s.pe.situation = .none → s.sfe.lid.level = .released →
        t.pe.situation = .noBase ∧ t.pe.posture = { state := .held, value := .detached, pending := none, run := 0 }
    ((st = .absent ∨ st = .settling) →
      exec .baseGone s = .next { u with bm := { s.bm with loss := none } }) ∧
    ((st = .powering ∨ st = .identifying ∨ st = .refused ∨ st = .failed) →
      ∃ t : State, exec .baseGone s = .next t ∧ t.bm = absent ∧ t.det = idle ∧ t.rba.base = none ∧
        (st = .failed → bitHas t.cm.live Cond.baseIdFail.idx = false) ∧ Changes parts s t) ∧
    ((st = .attached ∨ st = .detachAsked) →
      ∃ t : State, exec .baseGone s = .next t ∧ t.bm = absent ∧ t.det = idle ∧ t.rba.base = none ∧ t.pe.serial = none ∧
        detached t ∧ Rose .baseLost 1 u t ∧
        (s.lc.tx.isSome = true → bitHas s.lc.grant EventClass.base.idx = true →
          Queued (.baseLost .presence s.bm.active) t) ∧
        Changes (([.latched, .history] : List Part) ++ parts) s t) ∧
    ((st = .releasing ∨ st = .closing) →
      ∃ t : State, exec .baseGone s = .next t ∧ t.bm = absent ∧ t.det = { idle with outcome := some .detached } ∧
        t.rba.base = none ∧ t.rba.latch = none ∧ t.pe.serial = none ∧ detached t ∧
        (s.lc.tx.isSome = true → bitHas s.lc.grant EventClass.detach.idx = true →
          Queued (.detachResult .detached s.det.origin s.det.path s.bm.active) t) ∧
        (s.lc.tx.isSome = true → bitHas s.lc.grant EventClass.base.idx = true → Queued (.baseDetached s.bm.active) t) ∧
        Changes parts s t)

/-- FORGET_BASE and SET_BASE_OFFSET (R76, R77): the entry of the serial goes, or takes the offset clamped to −720..720; the
active base's entry is created anew with C = 0; the reply to SET_BASE_OFFSET carries the entry with its rank, which is its
place in the table from 1; a change of the active offset reaches PE and empties the base filter; a
change of the table requests a commit; an unknown serial is BAD_VALUE, and no active base is WRONG_STATE. -/
def Obligations.TableRequests : Prop :=
  ∀ (tag which : Byte) (ser off : List Byte) (s : State), ser.length = 6 → off.length = 2 →
    let serial := u48 ser 0
    let c := max (-720) (min 720 (s16 off 0))
    let named : Serial → Option BaseEntry := fun a => s.settings.table.find? fun e => e.serial == a
    let parts : List Part := [.table, .image, .commit, .assembler, .link, .queue]
    let active : List Part := [.baseSamples, .locks, .freshness, .hingeBase] ++ viewParts
    (Ready .forgetBase s → named serial = none →
      exec (.forgetBase tag ser) s =
        .next (replied .forgetBase tag ser { result := .badValue, content := .none } s)) ∧
    (Ready .forgetBase s → ∀ e, named serial = some e →
      ∃ t : State, exec (.forgetBase tag ser) s = .next t ∧ Answered .forgetBase tag { result := .ok, content := .none } t ∧
        (t.settings.table ≠ s.settings.table → commitAsked s t) ∧
        (s.bm.active ≠ some serial →
          t.settings.table = (s.settings.table.filter fun x => x.serial != serial) ∧ Changes parts s t) ∧
        (s.bm.active = some serial →
          t.settings.table = ⟨serial, (s.bm.identity.map (·.model)).getD e.model, 0⟩ :: others serial s ∧
          (e.offset ≠ 0 → t.pe.offset = 0 ∧ t.sfe.bFilter = none ∧ t.pe.fresh = false) ∧ Changes (parts ++ active) s t)) ∧
    (Ready .setBaseOffset s →
      let p := which :: ser ++ off
      let entry := if which = 0#8 then named serial else s.bm.active.bind named
      (1 < which.toNat ∨ (which = 0#8 ∧ entry = none) →
        exec (.setBaseOffset tag p) s =
          .next (replied .setBaseOffset tag p { result := .badValue, content := .none } s)) ∧
      (which = 1#8 → s.bm.active = none →
        exec (.setBaseOffset tag p) s =
          .next (replied .setBaseOffset tag p { result := .wrongState, content := .none } s)) ∧
      (which.toNat ≤ 1 → ∀ e k, entry = some e → s.settings.table[k]? = some e →
        (∀ x ∈ s.settings.table.take k, x.serial ≠ e.serial) →
        ∃ t : State, exec (.setBaseOffset tag p) s = .next t ∧
          Answered .setBaseOffset tag
            { result := if c = s16 off 0 then .ok else .clamped, content := .entry { e with offset := c } (k + 1) } t ∧
          (c = e.offset → t.settings.table = s.settings.table) ∧
          (c ≠ e.offset →
            t.settings.table =
              (s.settings.table.map fun x => if x.serial = e.serial then { x with offset := c } else x)) ∧
          (t.settings.table ≠ s.settings.table → commitAsked s t) ∧
          (s.bm.active = some e.serial → c ≠ e.offset →
            t.pe.offset = c ∧ t.sfe.bFilter = none ∧ t.pe.fresh = false) ∧
          Changes (parts ++ active) s t))

/-- CALIBRATE_HINGE (R78) in ATTACHED with a fresh, locked posture and a current θ writes the offset that makes θ the true
angle, clamped to −720..720, and requests a commit where that differs from the entry's (R74); without these it is
WRONG_STATE. ACCEPT_BASE (R70) in REFUSED admits the base at rank 1, files
its claim and powers it; elsewhere it is WRONG_STATE. -/
def Obligations.CalibrateAndAccept : Prop :=
  ∀ (tag lo hi : Byte) (s : State),
    let measured := s.bm.state = .attached ∧ s.pe.posture.state = .locked ∧ s.pe.fresh = true ∧ s.pe.thetaCurrent = true
    let entry := s.bm.active.bind fun a => s.settings.table.find? fun e => e.serial == a
    let asked := lo.toNat + 256 * hi.toNat
    let angle := min 5759 asked
    let theta := s.pe.theta.getD 0
    (Ready .calibrateHinge s → (¬ measured ∨ entry = none) →
      exec (.calibrateHinge tag [lo, hi]) s =
        .next (replied .calibrateHinge tag [lo, hi] { result := .wrongState, content := .none } s)) ∧
    (Ready .calibrateHinge s → measured → ∀ e, entry = some e →
      let raw := ((angle : Int) - theta + e.offset + 2880) % 5760 - 2880
      let c := max (-720) (min 720 raw)
      (((theta : Int) - e.offset + raw) % 5760 = angle) ∧
      ∃ t : State, exec (.calibrateHinge tag [lo, hi]) s = .next t ∧
        Answered .calibrateHinge tag
          { result := if angle = asked ∧ c = raw then .ok else .clamped, content := .calibration theta e.offset c } t ∧
        (c ≠ e.offset →
          t.settings.table =
            (s.settings.table.map fun x => if x.serial = e.serial then { x with offset := c } else x) ∧
          t.pe.offset = c ∧ t.sfe.bFilter = none ∧ t.pe.fresh = false ∧ t.pe.thetaCurrent = false ∧ commitAsked s t) ∧
        Changes (([.table, .image, .commit, .assembler, .baseSamples, .locks, .freshness, .hingeBase] : List Part) ++ viewParts) s t) ∧
    (Ready .acceptBase s → s.bm.state = .refused → ∀ i, s.bm.identity = some i →
      let amount := min i.draw 200
      ∃ t : State, exec (.acceptBase tag []) s = .next t ∧
        t.settings.table = ⟨i.serial, i.model, 0⟩ :: others i.serial s ∧
        Answered .acceptBase tag
          { result := .ok
            content := .admitted ⟨i.serial, i.model, 0⟩ 1
              ((s.settings.table.filter fun x => x.serial != i.serial)[3]?.map (·.serial)) } t ∧
        t.rba.base = some { requested := amount, minimum := amount } ∧
        (t.settings.table ≠ s.settings.table → commitAsked s t) ∧
        (amount ≤ s.rba.capacity → t.bm.state = .identifying ∧ t.bm.bpwr = true ∧ t.bm.phase = some .query1) ∧
        (s.rba.capacity < amount → t.bm.state = .powering ∧ t.bm.bpwr = false) ∧
        Changes (([.table, .presence, .bmState, .identify, .marks, .claims, .image, .commit, .assembler] : List Part) ++ reportParts ++
          noticeParts) s t) ∧
    (Ready .acceptBase s → s.bm.state ≠ .refused →
      exec (.acceptBase tag []) s = .next (replied .acceptBase tag [] { result := .wrongState, content := .none } s))

/-- SET_BASE_POLICY (R79): the policy becomes the one named, at once and without a commit, and touches no base already
attached or refused; a value that names none is BAD_VALUE. RESTORE_DEFAULTS sets it back to ACCEPT and leaves the table. -/
def Obligations.BasePolicyRequest : Prop :=
  ∀ (tag b : Byte) (s : State),
    (Ready .setBasePolicy s →
      exec (.setBasePolicy tag [b]) s =
        .next (if b = 0#8 then
            replied .setBasePolicy tag [b] { result := .ok, content := .none }
              { s with settings := { s.settings with basePolicy := .accept } }
          else if b = 1#8 then
            replied .setBasePolicy tag [b] { result := .ok, content := .none }
              { s with settings := { s.settings with basePolicy := .refuse } }
          else replied .setBasePolicy tag [b] { result := .badValue, content := .none } s)) ∧
    (Ready .restoreDefaults s →
      ∃ t : State, exec (.restoreDefaults tag []) s = .next t ∧ t.settings.basePolicy = .accept ∧
        t.settings.table = s.settings.table)

/-- R74, 4.6: the paired-base table has at most four entries of pairwise different serials, each with an offset in
−720..720, and every step keeps it so. -/
def Obligations.StepKeepsTableLaw : Prop :=
  ∀ s t : State, lawTable s → (∀ e ∈ s.settings.table, -720 ≤ e.offset ∧ e.offset ≤ 720) → step s = .next t →
    lawTable t ∧ ∀ e ∈ t.settings.table, -720 ≤ e.offset ∧ e.offset ≤ 720

/-! ## The detach sequence (Chapter 5) -/

/-- What a detach command may change: the attempt, the latch and what BM's change of state hands on (R62, R97). -/
def Sys2Proof.Claims.detachParts : List Part :=
  [.now, .presence, .bmState, .identify, .active, .blink, .attempt, .lsol, .claims, .latched, .history] ++ reportParts ++
  noticeParts

/-- An attempt has ended with an outcome and BM is back in ATTACHED: no deadline, no closing reason, the blink of R82, and
DETACH_RESULT (R98). -/
def Sys2Proof.Claims.attemptEnded (o : DetachOutcome) (u t : State) : Prop :=
  t.bm.state = .attached ∧ t.det.outcome = some o ∧ t.det.deadline = .none ∧ t.det.timer = none ∧
  t.det.closing = none ∧
  t.det.blink =
    (match o with
     | .denied | .noPower | .latchStuck | .consentTimeoutDenied => some (u.now + 2000)
     | .detached | .timedOut | .cancelled => u.det.blink) ∧
  (u.lc.tx.isSome = true → bitHas u.lc.grant EventClass.detach.idx = true →
    Queued (.detachResult o t.det.origin t.det.path u.bm.active) t) ∧
  Changes ([.waiting, .assembler, .button, .lsw] ++ detachParts) u t

/-- The outcome that a closing reason becomes (R94). -/
def Sys2Proof.Claims.outcomeOf : ClosingReason → DetachOutcome
  | .timedOut => .timedOut
  | .cancelled => .cancelled
  | .noPower => .noPower

/-- An attempt has ended with an outcome over a base that lost its supply meanwhile (R93, R98): DETACH_RESULT and BASE_LOST, the
outcome's blink, and in place of the return to ATTACHED the base is powered afresh under its claim. -/
def Sys2Proof.Claims.poweredAfresh (o : DetachOutcome) (u t : State) : Prop :=
  let amount := (u.rba.base.map (·.requested)).getD 0
  (t.bm.state = .powering ∨ t.bm.state = .identifying) ∧ t.bm.active = none ∧ t.bm.stream = .running ∧
  t.det.unpowered = false ∧ t.det.deadline = .none ∧ t.det.timer = none ∧ t.det.closing = none ∧ t.det.outcome = some o ∧
  t.det.blink =
    (match o with
     | .denied | .noPower | .latchStuck | .consentTimeoutDenied => some (u.now + 2000)
     | .detached | .timedOut | .cancelled => u.det.blink) ∧
  t.rba.base = some { requested := amount, minimum := amount } ∧ bitHas t.cm.latched Cond.baseLost.idx = true ∧
  (u.lc.tx.isSome = true →
    (bitHas u.lc.grant EventClass.detach.idx = true → Queued (.detachResult o t.det.origin t.det.path u.bm.active) t) ∧
    (bitHas u.lc.grant EventClass.base.idx = true → Queued (.baseLost .noPower u.bm.active) t))

/-- BM stands in RELEASING over a LATCH claim of 250 mA (R89, R90): granted, it is in the open check, or in the window where
the latch already reads OPEN, and without the grant it waits for it. -/
def Sys2Proof.Claims.releaseBegun (u t : State) : Prop :=
  t.bm.state = .releasing ∧ t.rba.latch = some (⟨250, 250⟩ : Claim) ∧ t.det.blink = none ∧
  (if (grantTable u.rba.capacity u.rba.base (some ⟨250, 250⟩) u.rba.pen).latch = 250 then
    t.det.lsol = true ∧ t.det.energised = true ∧
    (if u.det.lsw = .opened then
      t.det.deadline = .window ∧ t.det.timer = some (u.now + u.settings.detach.window)
    else t.det.deadline = .openCheck ∧ t.det.timer = some (u.now + 150))
  else
    t.det.lsol = u.det.lsol ∧ t.det.energised = false ∧ t.det.deadline = .grantWait ∧
    t.det.timer = some (u.now + 1000))

/-- BM has entered RELEASING (R89): the release has begun and the stream is quiesced. -/
def Sys2Proof.Claims.releasing (u t : State) : Prop :=
  releaseBegun u t ∧ t.bm.stream = (if u.bm.stream = .running then .pausing else u.bm.stream) ∧
  Changes ([.waiting, .assembler, .button, .lsw] ++ detachParts) u t

/-- BM has entered CLOSING with a reason (R94): LSOL is off, the LATCH claim is withdrawn and the close check runs; a latch
that already reads CLOSED ends the attempt at once. -/
def Sys2Proof.Claims.closingWith (why : ClosingReason) (u t : State) : Prop :=
  t.det.lsol = false ∧ t.rba.latch = none ∧
  (u.det.lsw = .opened →
    t.bm.state = .closing ∧ t.det.closing = some why ∧ t.det.deadline = .closeCheck ∧
    t.det.timer = some (u.now + 150)) ∧
  (u.det.lsw = .shut → u.det.unpowered = false → attemptEnded (outcomeOf why) u t) ∧
  (u.det.lsw = .shut → u.det.unpowered = true → poweredAfresh (outcomeOf why) u t ∧ Rose .baseLost 2 u t)

/-- R81, R82: DBTN is debounced for 50 ms, a debounced release does nothing, and a blink that ends is over.
The expiry commands carry the rest of their time (notes/assumptions/3.md), and an expiry or completion of nothing changes nothing
(notes/assumptions/8.md). -/
def Obligations.DetachButtonIsDebounced : Prop :=
  ∀ (l : Level) (s : State), s.held = none →
    (l = s.det.dbtn → exec (.dbtnChange l) s = .next s) ∧
    (l ≠ s.det.dbtn → s.det.debounce = .steady →
      exec (.dbtnChange l) s =
        .next { s with det := { s.det with dbtn := l, debounce := .changing, hold := some (s.now + 50) } }) ∧
    (l ≠ s.det.dbtn → s.det.debounce = .changing →
      exec (.dbtnChange l) s =
        .next { s with det := { s.det with dbtn := l, debounce := .steady, hold := none } }) ∧
    (∀ d, s.det.hold = some d → s.det.dbtn = .released →
      exec .buttonHoldExpiry s =
        .next { runTo d s with det := { s.det with button := .released, debounce := .steady, hold := none } }) ∧
    (s.det.hold = none → exec .buttonHoldExpiry s = .next s) ∧
    (∀ d, s.det.blink = some d →
      exec .blinkTimerExpiry s = .next { runTo d s with det := { s.det with blink := none } }) ∧
    (s.det.blink = none → exec .blinkTimerExpiry s = .next s)

/-- A press by BM's state (R81, R83, R84, R87, R92): ignored outside ATTACHED, DETACH_ASKED and RELEASING, and in ATTACHED
under a shut lid or a latched LATCH_STUCK; on the HOST path it asks for consent, on the STANDING path the standing policy
decides; in DETACH_ASKED it cancels the attempt, and in RELEASING it cancels it with or without a closing of the latch; a base
that has lost its supply is then powered afresh (R93). In ASLEEP the press is the cause DETACH_BUTTON first (R81, R152, R156),
and a release that follows finds the part in ACTIVE. The expiry carries the rest of its time (notes/assumptions/3.md). -/
def Obligations.PressByState : Prop :=
  ∀ (d : Nat) (s : State), s.held = none → s.det.hold = some d → s.det.dbtn = .asserted →
    let u := runTo d s
    let pressed : Det := { s.det with button := .asserted, debounce := .steady, hold := none }
    let barred := s.sfe.lid.level = .asserted ∨ bitHas s.cm.latched Cond.latchStuck.idx = true
    let asks := s.spu.host = .running ∧ bitHas s.lc.grant EventClass.detach.idx = true
    let ignored := ¬ (s.bm.state = .attached ∨ s.bm.state = .detachAsked ∨ s.bm.state = .releasing)
    let button := s.settings.wake.detachButton
    let wakes := s.spu.state = .asleep ∧ button.enable = .enabled ∧ bitHas button.mask s.spu.view.posture.code = true
    (ignored ∨ (s.bm.state = .attached ∧ barred) →
      ∃ t : State, exec .buttonHoldExpiry s = .next t ∧ t.det = pressed ∧ t.bm.state = s.bm.state ∧
        Changes (([.now, .charging, .button] : List Part) ++ wakeParts) s t) ∧
    (s.bm.state = .attached → ¬ barred → asks →
      ∃ t : State, exec .buttonHoldExpiry s = .next t ∧ t.bm.state = .detachAsked ∧
        t.det = { pressed with
          origin := some .button, path := some .host, blink := none, deadline := .consent
          timer := some (u.now + s.settings.detach.consentTimeout) } ∧
        (s.lc.tx.isSome = true →
          Queued (.detachRequest s.bm.active s.settings.detach.consentTimeout s.settings.detach.timeoutAction) t)) ∧
    (s.bm.state = .attached → ¬ barred → ¬ asks → s.settings.detach.standing = .deny →
      ∃ t : State, exec .buttonHoldExpiry s = .next t ∧ attemptEnded .denied u t ∧ t.det.origin = some .button ∧
        t.det.path = some .standing ∧ t.rba = s.rba ∧ t.settings = s.settings) ∧
    (s.bm.state = .attached → ¬ barred → ¬ asks → s.settings.detach.standing = .allow →
      ∃ t : State, exec .buttonHoldExpiry s = .next t ∧ releaseBegun u t ∧ t.det.origin = some .button ∧
        t.det.path = some .standing ∧ (¬ wakes → releasing u t) ∧
        (wakes → episodeBegun t.spu.causes u t ∧ bitHas t.spu.causes WakeCause.detachButton.idx = true ∧
          (t.pe.posture.value = s.pe.posture.value → t.spu.causes = bitAdd 0 WakeCause.detachButton.idx) ∧
          (s.spu.mode ≠ .active ∨ s.bm.stream = .running → t.bm.stream = .pausing))) ∧
    (s.bm.state = .detachAsked →
      ∃ t : State, exec .buttonHoldExpiry s = .next t ∧
        (s.det.unpowered = false → attemptEnded .cancelled u t) ∧
        (s.det.unpowered = true → poweredAfresh .cancelled u t ∧ Rose .baseLost 2 u t)) ∧
    (s.bm.state = .releasing → s.det.energised = false →
      ∃ t : State, exec .buttonHoldExpiry s = .next t ∧ t.rba.latch = none ∧
        (s.det.unpowered = false → attemptEnded .cancelled u t) ∧
        (s.det.unpowered = true → poweredAfresh .cancelled u t ∧ Rose .baseLost 2 u t)) ∧
    (s.bm.state = .releasing → s.det.energised = true →
      ∃ t : State, exec .buttonHoldExpiry s = .next t ∧ closingWith .cancelled u t)

/-- DETACH_CONSENT, REQUEST_DETACH and the end of the consent time (R85, R86, R88): the refusals that change nothing, in
their order; ALLOW and a taken request release the latch, DENY ends the attempt, and the timeout action stands in for an
answer that does not come.
The expiry commands carry the rest of their time (notes/assumptions/3.md), and an expiry or completion of nothing changes nothing
(notes/assumptions/8.md). -/
def Obligations.ConsentCommands : Prop :=
  ∀ (tag b : Byte) (s : State),
    let granted := bitHas s.lc.grant EventClass.detach.idx = true
    let barred := s.sfe.lid.level = .asserted ∨ bitHas s.cm.latched Cond.latchStuck.idx = true
    let refused : Result → State := fun r => replied .detachConsent tag [b] { result := r, content := .none } s
    let okay : Reply := { result := .ok, content := .none }
    (Ready .detachConsent s → ¬ granted → exec (.detachConsent tag [b]) s = .next (refused .notGranted)) ∧
    (Ready .detachConsent s → granted → 1 < b.toNat → exec (.detachConsent tag [b]) s = .next (refused .badValue)) ∧
    (Ready .detachConsent s → granted → b.toNat ≤ 1 → s.bm.state ≠ .detachAsked →
      exec (.detachConsent tag [b]) s = .next (refused .wrongState)) ∧
    (Ready .detachConsent s → granted → b = 0#8 → s.bm.state = .detachAsked →
      ∃ t : State, exec (.detachConsent tag [b]) s = .next t ∧ releasing s t ∧
        t.det.path = s.det.path ∧ Answered .detachConsent tag okay t) ∧
    (Ready .detachConsent s → granted → b = 1#8 → s.bm.state = .detachAsked → s.det.unpowered = false →
      ∃ t : State, exec (.detachConsent tag [b]) s = .next t ∧ attemptEnded .denied s t ∧
        Answered .detachConsent tag okay t) ∧
    (Ready .requestDetach s → s.bm.state = .attached → ¬ barred →
      ∃ t : State, exec (.requestDetach tag []) s = .next t ∧ releasing s t ∧ t.det.origin = some .request ∧
        t.det.path = some .host ∧ Answered .requestDetach tag okay t) ∧
    (Ready .requestDetach s → s.bm.state = .detachAsked →
      ∃ t : State, exec (.requestDetach tag []) s = .next t ∧ releasing s t ∧ t.det.origin = s.det.origin ∧
        Answered .requestDetach tag okay t) ∧
    (Ready .requestDetach s →
      (s.bm.state = .attached ∧ barred ∨ s.bm.state ≠ .attached ∧ s.bm.state ≠ .detachAsked) →
      exec (.requestDetach tag []) s =
        .next (replied .requestDetach tag [] { result := .wrongState, content := .none } s)) ∧
    (∀ d, s.det.timer = some d → s.held = none → s.bm.state = .detachAsked → s.det.deadline = .consent →
      (s.settings.detach.timeoutAction = .allow →
        ∃ t : State, exec .consentTimerExpiry s = .next t ∧ releasing (runTo d s) t) ∧
      (s.settings.detach.timeoutAction = .deny → s.det.unpowered = false →
        ∃ t : State, exec .consentTimerExpiry s = .next t ∧ attemptEnded .consentTimeoutDenied (runTo d s) t)) ∧
    (s.held = none → (s.det.deadline ≠ .consent ∨ s.bm.state ≠ .detachAsked) →
      exec .consentTimerExpiry s = .next s)

/-- The latch's own commands (R89, R90, R91, R93, R94): GRANT_WAIT that ends without its grant is NO_POWER; a latch that
does not open in 150 ms raises LATCH_STUCK with detail 1; an opening starts the window, whose end closes the latch; a closing
ends the attempt with the closing reason as its outcome, and one that does not come in 150 ms raises LATCH_STUCK with detail
2. Every end over a base that has lost its supply powers it afresh in place of the return to ATTACHED; of the two conditions
that a stuck latch then raises, either may rise first (notes/assumptions/1.md). A change of LSW that no check waits for is
recorded and does nothing else.
The expiry commands carry the rest of their time (notes/assumptions/3.md), and an expiry or completion of nothing changes nothing
(notes/assumptions/8.md). -/
def Obligations.LatchCommands : Prop :=
  ∀ (pos : LatchPos) (s : State), s.held = none →
    let st := s.bm.state
    let due := s.det.deadline
    let back := s.det.unpowered = false
    let stuck : State → Prop := fun t =>
      t.cm.next = s.cm.next + 2 ∧ bitHas t.cm.latched Cond.latchStuck.idx = true
    (∀ d, s.det.timer = some d →
      let u := runTo d s
      (st = .releasing → due = .grantWait →
        ∃ t : State, exec .grantWaitExpiry s = .next t ∧ t.rba.latch = none ∧ (back → attemptEnded .noPower u t) ∧
          (¬ back → poweredAfresh .noPower u t ∧ Rose .baseLost 2 u t)) ∧
      (st = .releasing → due = .openCheck →
        ∃ t : State, exec .openCheckExpiry s = .next t ∧ t.rba.latch = none ∧ t.det.lsol = false ∧
          (back → attemptEnded .latchStuck u t ∧ Rose .latchStuck 1 u t) ∧
          (¬ back → poweredAfresh .latchStuck u t ∧ stuck t)) ∧
      (st = .releasing → due = .window →
        ∃ t : State, exec .releaseWindowExpiry s = .next t ∧ closingWith .timedOut u t) ∧
      (st = .closing → due = .closeCheck →
        ∃ t : State, exec .closeCheckExpiry s = .next t ∧
          (back → attemptEnded .latchStuck u t ∧ Rose .latchStuck 2 u t) ∧
          (¬ back → poweredAfresh .latchStuck u t ∧ stuck t))) ∧
    (st = .releasing → due = .openCheck →
      exec (.lswChange .opened) s =
        .next { s with
          det := { s.det with lsw := .opened, deadline := .window, timer := some (s.now + s.settings.detach.window) } }) ∧
    (st = .closing → due = .closeCheck → ∀ why, s.det.closing = some why →
      ∃ t : State, exec (.lswChange .shut) s = .next t ∧ t.det.lsw = .shut ∧
        (back → attemptEnded (outcomeOf why) s t) ∧
        (¬ back → poweredAfresh (outcomeOf why) s t ∧ Rose .baseLost 2 s t)) ∧
    (¬ (st = .releasing ∧ due = .openCheck ∧ pos = .opened) → ¬ (st = .closing ∧ due = .closeCheck ∧ pos = .shut) →
      exec (.lswChange pos) s = .next { s with det := { s.det with lsw := pos } }) ∧
    (¬ (st = .releasing ∧ due = .grantWait) ∨ s.det.timer = none → exec .grantWaitExpiry s = .next s) ∧
    (¬ (st = .releasing ∧ due = .openCheck) ∨ s.det.timer = none → exec .openCheckExpiry s = .next s) ∧
    (¬ (st = .releasing ∧ due = .window) ∨ s.det.timer = none → exec .releaseWindowExpiry s = .next s) ∧
    (¬ (st = .closing ∧ due = .closeCheck) ∨ s.det.timer = none → exec .closeCheckExpiry s = .next s)

/-- SET_DETACH_POLICY (R99): the whole policy is replaced with both times clamped, the reply says so, running timers keep
their length, and no commit is requested; a policy or action that is neither ALLOW nor DENY is BAD_VALUE. RESTORE_DEFAULTS
sets the policy back to ALLOW, DENY, 2000 ms and 3000 ms. -/
def Obligations.DetachPolicyRequest : Prop :=
  ∀ (tag a b c0 c1 w0 w1 : Byte) (s : State),
    let p := [a, b, c0, c1, w0, w1]
    let timeout := c0.toNat + 256 * c1.toNat
    let window := w0.toNat + 256 * w1.toNat
    let consent : Byte → Consent := fun x => if x = 0#8 then .allow else .deny
    let new : DetachPolicy :=
      { standing := consent a, timeoutAction := consent b
        consentTimeout := max 500 (min 10000 timeout), window := max 1000 (min 5000 window) }
    let clamped := ¬ (new.consentTimeout = timeout ∧ new.window = window)
    (Ready .setDetachPolicy s → a.toNat ≤ 1 → b.toNat ≤ 1 →
      exec (.setDetachPolicy tag p) s =
        .next (replied .setDetachPolicy tag p
          { result := if clamped then .clamped else .ok, content := .detachPolicy new }
          { s with settings := { s.settings with detach := new } })) ∧
    (Ready .setDetachPolicy s → (1 < a.toNat ∨ 1 < b.toNat) →
      exec (.setDetachPolicy tag p) s =
        .next (replied .setDetachPolicy tag p { result := .badValue, content := .none } s)) ∧
    (Ready .restoreDefaults s →
      ∃ t : State, exec (.restoreDefaults tag []) s = .next t ∧
        t.settings.detach = { standing := .allow, timeoutAction := .deny, consentTimeout := 2000, window := 3000 })

/-- The latch as it must stand: LSOL on only in RELEASING with the LATCH grant at 250 mA, in an open check or a window of an
energised attempt; a filed LATCH claim is the one of R89; and the grants are those of R114. -/
def Sys2Proof.Claims.latchHolds (s : State) : Prop :=
  (s.det.lsol = true →
    s.bm.state = .releasing ∧ s.rba.grants.latch = 250 ∧ s.det.energised = true ∧
    (s.det.deadline = .openCheck ∨ s.det.deadline = .window)) ∧
  (∀ c, s.rba.latch = some c → c = ⟨250, 250⟩) ∧
  s.rba.grants = grantTable s.rba.capacity s.rba.base s.rba.latch s.rba.pen

/-- R90's law of the part, with what it needs to hold from step to step: every step keeps the latch as it must stand. -/
def Obligations.StepKeepsLatchLaw : Prop :=
  (∀ s t : State, latchHolds s → step s = .next t → latchHolds t) ∧ (∀ s : State, latchHolds s → lawLatch s)

/-! ## The supply and the rail (Chapter 6) -/

/-- The target supply band of a reading in mV (R104). -/
def Sys2Proof.Claims.bandOf (band : Supply) (mv : Nat) : Supply :=
  if mv < 3300 then .critical
  else
    match band with
    | .normal => if mv < 3500 then .low else .normal
    | .low => if 3600 ≤ mv then .normal else .low
    | .critical => if 3600 ≤ mv then .normal else if 3400 ≤ mv then .low else .critical

/-- The target thermal band of a reading in °C (R106). -/
def Sys2Proof.Claims.heatOf (band : Thermal) (temp : Int) : Thermal :=
  match band with
  | .cool => if 60 ≤ temp then .warm else .cool
  | .warm => if temp < 55 then .cool else .warm

/-- PDC at a new capacity that leaves the grants above it alone, its claim filed and its grant the one of the table (R115,
R130): an unchanged grant is no notice; a new one becomes the setpoint of a charging phase, at 0 the phase waits for a grant,
and a phase that waits is entered again. -/
def Sys2Proof.Claims.penNoticed (capacity : Nat) (s t : State) : Prop :=
  let g := grantTable capacity s.rba.base s.rba.latch s.rba.pen
  let charging := s.pdc.state = .precharge ∨ s.pdc.state = .charge ∨ s.pdc.state = .topoff
  let stateOf : ChargePhase → PdcState := fun ph =>
    match ph with | .precharge => .precharge | .charge => .charge | .topoff => .topoff
  g.base = s.rba.grants.base → g.latch = s.rba.grants.latch → s.rba.pen.isSome = true →
  s.pdc.grant = s.rba.grants.pen →
    (g.pen = s.pdc.grant → t.pdc = s.pdc) ∧
    (g.pen ≠ s.pdc.grant →
      t.pdc.grant = g.pen ∧
      (charging → g.pen ≠ 0 → t.pdc.state = s.pdc.state ∧ t.pdc.setpoint = g.pen ∧ (g.pen < 100 → t.pdc.runStart = none)) ∧
      (∀ ph, s.pdc.state = stateOf ph → g.pen = 0 →
        t.pdc.state = .waitGrant ∧ t.pdc.remembered = some ph ∧ t.pdc.setpoint = 0 ∧ t.rba.pen = s.rba.pen) ∧
      (s.pdc.state = .waitGrant → ∀ ph, s.pdc.remembered = some ph → g.pen ≠ 0 →
        t.pdc.state = stateOf ph ∧ t.pdc.setpoint = g.pen ∧ t.pdc.remembered = none) ∧
      (s.pdc.state = .waitGrant → g.pen = 0 → t.pdc.state = .waitGrant ∧ t.pdc.remembered = s.pdc.remembered))

/-- BM at a new capacity that changes the grant of its BASE claim, where the grants before are those of R114 (R115): a claim
granted in POWERING powers the base (R62); one that falls short takes an identification back to POWERING (R66), is the loss of
power of an attached base (R66, R93), and in RELEASING and CLOSING switches BPWR off with the base-unpowered mark set (R93). -/
def Sys2Proof.Claims.baseNoticed (capacity : Nat) (s t : State) : Prop :=
  let g := grantTable capacity s.rba.base s.rba.latch s.rba.pen
  let st := s.bm.state
  s.rba.grants = grantTable s.rba.capacity s.rba.base s.rba.latch s.rba.pen →
  ∀ c, s.rba.base = some c → c.minimum = c.requested → g.base ≠ s.rba.grants.base →
    (st = .powering → g.base = c.requested →
      t.bm.state = .identifying ∧ t.bm.bpwr = true ∧ t.bm.phase = some .query1 ∧ t.bm.queryOut = true ∧
      t.bm.query = some (s.now + 500)) ∧
    (st = .identifying → g.base ≠ c.requested →
      t.bm.state = .powering ∧ t.bm.bpwr = false ∧ t.bm.phase = none ∧ t.bm.queryOut = false ∧ t.bm.query = none ∧
      t.rba.base = some c) ∧
    (st = .attached ∨ st = .detachAsked → g.base ≠ c.requested →
      t.bm.state = .powering ∧ t.bm.bpwr = false ∧ t.bm.active = none ∧ t.bm.stream = .running ∧ t.det.deadline = .none ∧
      t.det.outcome = s.det.outcome ∧ t.rba.base = some c ∧ bitHas t.cm.latched Cond.baseLost.idx = true ∧
      (s.lc.tx.isSome = true → bitHas s.lc.grant EventClass.base.idx = true →
        Queued (.baseLost .noPower s.bm.active) t)) ∧
    (st = .closing ∨ (st = .releasing ∧ g.latch = s.rba.grants.latch) → g.base ≠ c.requested →
      t.bm.state = st ∧ t.bm.bpwr = false ∧ t.det.unpowered = true ∧ t.rba.base = some c)

/-- BM in RELEASING at a new capacity that changes the grant of its LATCH claim, where the grants before are those of R114
(R115): 250 mA in GRANT_WAIT start the open check, or the window where the latch already reads OPEN (R89, R90, R91); 0 under an
energised latch closes it with NO_POWER (R92), which a latch that reads CLOSED makes the outcome at once (R94). -/
def Sys2Proof.Claims.latchNoticed (capacity : Nat) (s t : State) : Prop :=
  let g := grantTable capacity s.rba.base s.rba.latch s.rba.pen
  s.rba.grants = grantTable s.rba.capacity s.rba.base s.rba.latch s.rba.pen →
  s.bm.state = .releasing → s.rba.latch.isSome = true → g.latch ≠ s.rba.grants.latch →
    (s.det.deadline = .grantWait → g.latch = 250 →
      t.bm.state = .releasing ∧ t.det.lsol = true ∧ t.det.energised = true ∧
      (if s.det.lsw = .opened then
        t.det.deadline = .window ∧ t.det.timer = some (s.now + s.settings.detach.window)
      else t.det.deadline = .openCheck ∧ t.det.timer = some (s.now + 150))) ∧
    (s.det.lsol = true → g.latch = 0 →
      t.det.lsol = false ∧ t.rba.latch = none ∧
      (s.det.lsw = .opened →
        t.bm.state = .closing ∧ t.det.closing = some .noPower ∧ t.det.deadline = .closeCheck ∧
        t.det.timer = some (s.now + 150)) ∧
      (s.det.lsw = .shut →
        t.det.outcome = some .noPower ∧ t.det.deadline = .none ∧ t.det.closing = none ∧
        (g.base = s.rba.grants.base → s.det.unpowered = false → t.bm.state = .attached)))

/-- R101, R103 to R107, R111, R114: a scan is started at each period; its completion records the three readings, saturated at
the ends of their ranges, and confirms each band over two scans; a change of a band sets the capacity of the pair, computes
the grants and moves the conditions, the SUPPLY trigger and PDC's SUPPLY reason with it, and each consumer whose grant changes
takes its notice (R115): PDC charges at the new grant, waits for one or resumes (R130), BM powers a base whose grant has come
(R62) and loses one whose grant has gone (R66, R93), starts the open check and loses the latch (R89, R92). The notices to BM are
stated where the grants before the scan are those of R114, the invariant of GrantsFollowTheRail.
The expiry commands carry the rest of their time (notes/assumptions/3.md), and an expiry or completion of nothing changes nothing
(notes/assumptions/8.md). -/
def Obligations.ScanCommands : Prop :=
  ∀ (mv : Nat) (temp : Int) (ma : Nat) (s : State), s.held = none →
    let v := min 5000 mv
    let k := max (-40) (min 125 temp)
    let target := bandOf s.sm.supply v
    let heat := heatOf s.sm.thermal k
    let supply := if s.sm.supplyCandidate = some target then target else s.sm.supply
    let thermal := if s.sm.thermalCandidate = some heat then heat else s.sm.thermal
    let sm : Sm :=
      { s.sm with
        scanning := false, vsys := some v, temp := some k, penCurrent := some (min 300 ma)
        supply := supply, supplyCandidate := if target = supply then none else some target
        thermal := thermal, thermalCandidate := if heat = thermal then none else some heat }
    let capacity : Nat :=
      match supply, thermal with
      | .normal, .cool => 600
      | .normal, .warm => 300
      | .low, .cool => 400
      | .low, .warm => 200
      | .critical, .cool => 150
      | .critical, .warm => 75
    (∀ d, s.sm.period = some d →
      exec .scanPeriodExpiry s =
        .next { runTo d s with
          sm := { s.sm with period := some ((runTo d s).now + s.sm.periodMs), scanning := true } }) ∧
    (s.sm.period = none → exec .scanPeriodExpiry s = .next s) ∧
    (s.sm.scanning = false → exec (.scanCompletion mv temp ma) s = .next s) ∧
    (s.sm.scanning = true → supply = s.sm.supply → thermal = s.sm.thermal →
      (s.pdc.state ≠ .topoff ∨ s.pdc.grant ≠ 100) →
      exec (.scanCompletion mv temp ma) s = .next { s with sm := sm }) ∧
    (s.sm.scanning = true → (supply ≠ s.sm.supply ∨ thermal ≠ s.sm.thermal) →
      ∃ t : State, exec (.scanCompletion mv temp ma) s = .next t ∧
        (t.sm.vsys = some v ∧ t.sm.temp = some k ∧ t.sm.penCurrent = some (min 300 ma) ∧ t.sm.scanning = false) ∧
        t.sm.supply = supply ∧ t.sm.supplyCandidate = sm.supplyCandidate ∧
        t.sm.thermal = thermal ∧ t.sm.thermalCandidate = sm.thermalCandidate ∧
        t.rba.capacity = capacity ∧
        t.rba.grants = grantTable t.rba.capacity t.rba.base t.rba.latch t.rba.pen ∧
        ((s.sm.supply = .critical) ≠ (supply = .critical) →
          bitHas t.cm.live Cond.supplyCritical.idx = decide (supply = .critical) ∧
          bitHas t.pdc.reasons SuspendReason.supply.idx = decide (supply = .critical)) ∧
        ((s.sm.supply = .normal) ≠ (supply = .normal) →
          bitHas t.cm.live Cond.supplyLow.idx = decide (supply ≠ .normal)) ∧
        (s.sm.thermal ≠ thermal → bitHas t.cm.live Cond.thermalWarm.idx = decide (thermal = .warm)) ∧
        ((s.sm.supply = .critical) ≠ (supply = .critical) →
          triggerMoves .supply (condition s.settings.sleep s.spu.view supply .supply) s.settings.sleep s t) ∧
        (supply = .critical → s.sm.supply ≠ .critical → s.pdc.reasons = 0 →
          (PdcState.charging s.pdc.state = true ∧ (s.pdc.state ≠ .topoff ∨ s.pdc.grant ≠ 100) ∨
            s.pdc.state = .waitGrant) →
          t.pdc.state = .suspended ∧ t.pdc.setpoint = 0 ∧ t.rba.pen = none) ∧
        ((s.sm.supply = .critical) = (supply = .critical) → (s.pdc.state ≠ .topoff ∨ s.pdc.grant ≠ 100) →
          penNoticed capacity s t) ∧
        baseNoticed capacity s t ∧ latchNoticed capacity s t)

/-- R114 and what follows from it: the grants go down from BASE over LATCH to PEN, each as much of its request as remains
and nothing below its minimum, and never exceed the capacity; a claim never takes from one above it. Every step leaves the
grant table as R114 computes it and the capacity as R111 gives it. -/
def Obligations.GrantsFollowTheRail : Prop :=
  (capacityOf .normal .cool = 600 ∧ capacityOf .normal .warm = 300 ∧ capacityOf .low .cool = 400 ∧
    capacityOf .low .warm = 200 ∧ capacityOf .critical .cool = 150 ∧ capacityOf .critical .warm = 75) ∧
  (∀ (capacity : Nat) (base latch pen : Option Claim),
    let g := grantTable capacity base latch pen
    let give : Nat → Option Claim → Nat := fun left c =>
      match c with
      | none => 0
      | some c => if c.minimum ≤ min c.requested left then min c.requested left else 0
    g.base = give capacity base ∧ g.latch = give (capacity - g.base) latch ∧
    g.pen = give (capacity - g.base - g.latch) pen ∧ g.base + g.latch + g.pen ≤ capacity ∧
    (∀ pen', (grantTable capacity base latch pen').base = g.base ∧ (grantTable capacity base latch pen').latch = g.latch) ∧
    ∀ latch' pen', (grantTable capacity base latch' pen').base = g.base) ∧
  (∀ s t : State,
    s.rba.grants = grantTable s.rba.capacity s.rba.base s.rba.latch s.rba.pen →
    s.rba.capacity = capacityOf s.sm.supply s.sm.thermal → step s = .next t →
    t.rba.grants = grantTable t.rba.capacity t.rba.base t.rba.latch t.rba.pen ∧
    t.rba.capacity = capacityOf t.sm.supply t.sm.thermal ∧ lawGrants t)

/-! ## The pen (Chapter 7) -/

/-- The poll interval of a state (R123). -/
def Sys2Proof.Claims.pollMs : PdcState → Option Nat
  | .identifying | .precharge | .charge | .topoff => some 1000
  | .waitGrant | .suspended | .full => some 10000
  | .empty | .settling | .fault => none

/-- What a change of PDC may change beside its record (R141, R142). -/
def Sys2Proof.Claims.penParts : List Part := [.now, .garage, .penClaim, .penLast, .queries, .live, .latched, .history] ++ noticeParts

/-- R120 to R122: the pen settles for 200 ms, is then identified with a first poll, and is removed when PDET has been
released for 50 ms; a removal ends the cycle, the fault and the claim, and a level that is asserted again by then settles afresh.
TEMP leaves the suspend-reason set with the pen, without a phase choice (the model's reading, notes/assumptions/36.md).
The expiry commands carry the rest of their time (notes/assumptions/3.md), and an expiry or completion of nothing changes nothing
(notes/assumptions/8.md). -/
def Obligations.PenPresence : Prop :=
  ∀ (l : Level) (s : State), s.held = none →
    let st := s.pdc.state
    (l = s.pdc.pdet → exec (.pdetChange l) s = .next s) ∧
    (l ≠ s.pdc.pdet → st = .empty → l = .asserted →
      ∃ t : State, exec (.pdetChange l) s = .next t ∧
        t.pdc = { s.pdc with pdet := l, state := .settling, settle := some (s.now + 200) } ∧
        Changes (([.garage, .charging] : List Part) ++ modeParts) s t) ∧
    (l ≠ s.pdc.pdet → st = .settling → l = .released →
      ∃ t : State, exec (.pdetChange l) s = .next t ∧ t.pdc = { s.pdc with pdet := l, state := .empty, settle := none } ∧
        Changes (([.garage, .charging] : List Part) ++ modeParts) s t) ∧
    (l ≠ s.pdc.pdet → (st = .empty ∧ l = .released ∨ st = .settling ∧ l = .asserted) →
      exec (.pdetChange l) s = .next { s with pdc := { s.pdc with pdet := l } }) ∧
    (l ≠ s.pdc.pdet → st ≠ .empty → st ≠ .settling →
      exec (.pdetChange l) s =
        .next { s with
          pdc := { s.pdc with
            pdet := l, removal := match l with | .released => some (s.now + 50) | .asserted => none } }) ∧
    (∀ d, s.pdc.settle = some d → st = .settling →
      ∃ t : State, exec .penSettleTimerExpiry s = .next t ∧
        t.pdc =
          { (runTo d s).pdc with
            settle := none, state := .identifying, misses := 0, poll := none, outstanding := true
            response := some ((runTo d s).now + 50) } ∧
        t.queries = s.queries + 1 ∧
        (s.lc.tx.isSome = true → bitHas s.lc.grant EventClass.pen.idx = true →
          Queued (.penState (penRecord t.pdc)) t) ∧
        Changes penParts s t) ∧
    (st ≠ .settling → exec .penSettleTimerExpiry s = .next s) ∧
    (∀ d, s.pdc.removal = some d →
      ∃ t : State, exec .penRemoval s = .next t ∧
        t.pdc =
          { (runTo d s).pdc with
            removal := none, poll := none, response := none, outstanding := false, misses := 0, fault := none
            reasons := bitDrop s.pdc.reasons SuspendReason.temp.idx, last := none, remembered := none
            cycleOpen := false, chargeMs := 0, prechargeMs := 0, runStart := none, grant := 0, setpoint := 0
            state := if s.pdc.pdet = .asserted then .settling else .empty
            settle := if s.pdc.pdet = .asserted then some ((runTo d s).now + 200) else s.pdc.settle } ∧
        t.rba.pen = none ∧
        (∀ f, s.pdc.fault = some f → bitHas t.cm.live (penCond f).idx = false) ∧
        (s.lc.tx.isSome = true → bitHas s.lc.grant EventClass.pen.idx = true → st ≠ .empty →
          Queued (.penState (penRecord { t.pdc with state := .empty })) t) ∧
        Changes penParts s t) ∧
    (s.pdc.removal = none → exec .penRemoval s = .next s)

/-- A charging phase has been entered (R127 to R129): the claim is filed with its answer as the grant, and PDC charges at the
grant or waits for one, remembering the phase. -/
def Sys2Proof.Claims.phaseFiled (ph : ChargePhase) (amount : Nat) (u t : State) : Prop :=
  let g := (grantTable u.rba.capacity u.rba.base u.rba.latch (some ⟨amount, 40⟩)).pen
  t.rba.pen = some (⟨amount, 40⟩ : Claim) ∧ t.pdc.grant = g ∧ t.pdc.setpoint = g ∧ t.rba.grants.pen = g ∧
  (g = 0 → t.pdc.state = .waitGrant ∧ t.pdc.remembered = some ph) ∧
  (g ≠ 0 → t.pdc.state = (match ph with | .precharge => .precharge | .charge => .charge | .topoff => .topoff) ∧
    t.pdc.remembered = none)

/-- A charging phase entered at a poll, with the next poll by the state (R123). -/
def Sys2Proof.Claims.phaseStands (ph : ChargePhase) (amount : Nat) (u t : State) : Prop :=
  phaseFiled ph amount u t ∧ t.pdc.poll = some (u.now + if t.pdc.state = .waitGrant then 10000 else 1000)

/-- PDC is in FULL (R136): no setpoint, no claim, the cycle closed with the times it reached. -/
def Sys2Proof.Claims.fullStands (u t : State) : Prop :=
  t.pdc.state = .full ∧ t.pdc.setpoint = 0 ∧ t.rba.pen = none ∧ t.pdc.cycleOpen = false ∧ t.pdc.runStart = none ∧
  t.pdc.chargeMs = u.pdc.chargeMs ∧ t.pdc.prechargeMs = u.pdc.prechargeMs

/-- The phase of a cell voltage stands (R127), by `stands`, with the pen settings `w`. -/
def Sys2Proof.Claims.phaseOf (w : PenSettings) (cell : Nat) (stands : ChargePhase → Nat → Prop) : Prop :=
  (cell < 3000 → stands .precharge 40) ∧ (3000 ≤ cell → cell < 4150 → stands .charge w.maxCurrent) ∧
  (4150 ≤ cell → stands .topoff 100)

/-- The cycle is open (R127): one that was open goes on, a new one starts from 0 under the safety limit of `w`. -/
def Sys2Proof.Claims.cycleRuns (w : PenSettings) (u t : State) : Prop :=
  t.pdc.cycleOpen = true ∧
  (u.pdc.cycleOpen = true →
    t.pdc.chargeMs = u.pdc.chargeMs ∧ t.pdc.prechargeMs = u.pdc.prechargeMs ∧ t.pdc.limitMin = u.pdc.limitMin) ∧
  (u.pdc.cycleOpen = false → t.pdc.chargeMs = 0 ∧ t.pdc.prechargeMs = 0 ∧ t.pdc.limitMin = w.safety)

/-- PDC stands in FAULT with a reason and its code (R139): no current, no claim, no poll, and the condition raised. -/
def Sys2Proof.Claims.faultStands (f : PenFault) (code : Nat) (u t : State) : Prop :=
  t.pdc.state = .fault ∧ t.pdc.fault = some f ∧ t.pdc.setpoint = 0 ∧ t.rba.pen = none ∧ t.pdc.poll = none ∧
  t.pdc.response = none ∧ t.pdc.outstanding = false ∧ t.pdc.cycleOpen = false ∧ t.pdc.remembered = none ∧
  (bitHas u.cm.live (penCond f).idx = false → Rose (penCond f) code u t) ∧ Changes penParts u t

/-- R123 to R128, R131 to R134, R139: a poll sends STATUS_QUERY and waits 50 ms; three misses are NO_RESPONSE; a status that
is damaged or answers no poll is discarded; a taken one, with its fields saturated, reports a cell fault, moves the reason
TEMP by its temperature (0 to 2 and 43 to 45 degrees leave it as it stands), suspends a charging pen that is too cold or too
warm, resumes a suspended one by the phase choice when its last reason goes, chooses the phase of a newly identified pen and
of a FULL one below the recharge level, and advances a phase, which WAIT_GRANT does not. The expiries carry the rest of their
time (notes/assumptions/3.md), and one of an idle timer changes nothing (notes/assumptions/8.md). -/
def Obligations.PenPolls : Prop :=
  ∀ (d : Nat) (intact : Bool) (raw : PenStatus) (s : State), s.held = none →
    let st : PenStatus :=
      { raw with cell := min 4500 raw.cell, temp := max (-20) (min 80 raw.temp), charge := min 100 raw.charge }
    let taken : Prop :=
      intact = true ∧ s.pdc.outstanding = true ∧
      (s.pdc.state = .identifying ∨ ∀ l, s.pdc.last = some l → l.serial = st.serial)
    let mild : Prop := 3 ≤ st.temp ∧ st.temp ≤ 42
    let temp := SuspendReason.temp.idx
    let reasons : BitVec 3 :=
      if st.temp < 0 ∨ 45 < st.temp then bitAdd s.pdc.reasons temp
      else if mild then bitDrop s.pdc.reasons temp
      else s.pdc.reasons
    let w := s.settings.pen
    let polled : State → Prop := fun t =>
      t.pdc.last = some st ∧ t.pdc.outstanding = false ∧ t.pdc.response = none ∧ t.pdc.misses = 0 ∧ Changes penParts s t
    let chosen : State → Prop := fun t =>
      (s.pdc.cycleOpen = false → w.recharge ≤ st.charge → fullStands s t ∧ t.pdc.poll = some (s.now + 10000)) ∧
      (s.pdc.cycleOpen = true ∨ st.charge < w.recharge →
        cycleRuns w s t ∧ phaseOf w st.cell fun ph amount => phaseStands ph amount s t)
    let rests : Nat → State → Prop := fun interval t =>
      t.pdc =
        { s.pdc with
          last := some st, outstanding := false, response := none, misses := 0, reasons := reasons
          poll := some (s.now + interval) } ∧
      t.rba = s.rba
    (s.pdc.poll = some d →
      exec .pollTimerExpiry s =
        .next { runTo d s with
          pdc := { (runTo d s).pdc with
            poll := none, outstanding := true, response := some ((runTo d s).now + 50) }
          queries := s.queries + 1 }) ∧
    (s.pdc.poll = none → exec .pollTimerExpiry s = .next s) ∧
    (s.pdc.response = some d → s.pdc.misses < 2 →
      exec .responseTimerExpiry s =
        .next { runTo d s with
          pdc := { (runTo d s).pdc with
            response := none, outstanding := false, misses := s.pdc.misses + 1
            poll := (pollMs s.pdc.state).map ((runTo d s).now + ·) } }) ∧
    (s.pdc.response = some d → 2 ≤ s.pdc.misses →
      ∃ t : State, exec .responseTimerExpiry s = .next t ∧ faultStands .noResponse 1 (runTo d s) t) ∧
    (s.pdc.response = none → exec .responseTimerExpiry s = .next s) ∧
    ((intact = false ∨ s.pdc.outstanding = false) → exec (.penStatus intact raw) s = .next s) ∧
    (taken → st.cellFault = true →
      ∃ t : State, exec (.penStatus intact raw) s = .next t ∧ polled t ∧ faultStands .cell 2 s t) ∧
    (taken → st.cellFault = false →
      ∃ t : State, exec (.penStatus intact raw) s = .next t ∧ polled t ∧ t.pdc.reasons = reasons ∧
        (s.pdc.state = .identifying → reasons = 0 → chosen t) ∧
        (s.pdc.state = .identifying → reasons ≠ 0 → (s.pdc.cycleOpen = true ∨ st.charge < w.recharge) →
          t.pdc.state = .suspended ∧ t.pdc.setpoint = 0 ∧ t.rba.pen = none ∧ t.pdc.cycleOpen = s.pdc.cycleOpen) ∧
        (PdcState.charging s.pdc.state = true ∨ s.pdc.state = .waitGrant → s.pdc.reasons = 0 → reasons ≠ 0 →
          t.pdc.state = .suspended ∧ t.pdc.setpoint = 0 ∧ t.rba.pen = none ∧ t.pdc.remembered = none ∧
          t.pdc.runStart = none ∧ t.pdc.cycleOpen = s.pdc.cycleOpen ∧ t.pdc.chargeMs = s.pdc.chargeMs ∧
          t.pdc.poll = some (s.now + 10000)) ∧
        (s.pdc.state = .suspended → s.pdc.reasons ≠ 0 → reasons = 0 → chosen t) ∧
        (s.pdc.state = .suspended → reasons ≠ 0 → rests 10000 t) ∧
        (s.pdc.state = .precharge → s.pdc.reasons = 0 → reasons = 0 → 3000 ≤ st.cell → st.cell < 4150 →
          phaseStands .charge w.maxCurrent s t) ∧
        (s.pdc.state = .charge ∨ s.pdc.state = .precharge → s.pdc.reasons = 0 → reasons = 0 → 4150 ≤ st.cell →
          phaseStands .topoff 100 s t) ∧
        (s.pdc.state = .topoff ∨ (s.pdc.state = .charge ∧ st.cell < 4150) ∨ (s.pdc.state = .precharge ∧ st.cell < 3000) →
          s.pdc.reasons = 0 → reasons = 0 → rests 1000 t) ∧
        (s.pdc.state = .waitGrant → s.pdc.reasons = 0 → reasons = 0 → rests 10000 t) ∧
        (s.pdc.state = .full → w.recharge ≤ st.charge → rests 10000 t) ∧
        (s.pdc.state = .full → st.charge < w.recharge → reasons = 0 → chosen t))

/-- A pen whose serial is not that of the last status is a removal and an insertion at once (R126 step 1): the old cycle, its
misses and its temperature reason are gone (that reason without a phase choice: the model's reading, notes/assumptions/36.md),
and the new pen is handled as one just identified. -/
def Obligations.AnotherPenStartsAfresh : Prop :=
  ∀ (st old : PenStatus) (s : State), s.held = none → s.pdc.outstanding = true → s.pdc.last = some old →
    s.pdc.state ≠ .identifying → old.serial ≠ st.serial → st.cell ≤ 4500 → 3 ≤ st.temp → st.temp ≤ 42 →
    st.charge < s.settings.pen.recharge → s.settings.pen.recharge ≤ 100 → st.cellFault = false →
    bitDrop s.pdc.reasons SuspendReason.temp.idx = 0 →
    ∃ t : State, exec (.penStatus true st) s = .next t ∧ t.pdc.last = some st ∧ t.pdc.cycleOpen = true ∧
      t.pdc.chargeMs = 0 ∧ t.pdc.prechargeMs = 0 ∧ t.pdc.limitMin = s.settings.pen.safety ∧ t.pdc.misses = 0 ∧
      t.pdc.reasons = 0 ∧ t.pdc.fault = none ∧
      (∀ f, s.pdc.fault = some f → bitHas t.cm.live (penCond f).idx = false) ∧
      phaseOf s.settings.pen st.cell fun ph amount => phaseStands ph amount s t

/-- R135, R138, R143: the two charge times end a cycle in FAULT; a scan that keeps the bands starts, continues or ends a run of
low scans under the full TOPOFF grant, and a run of 3000 ms ends the cycle in FULL; SET_PEN_CHARGING replaces the settings
with every number clamped, DISABLED suspends a charging pen, ENABLED resumes one suspended for that alone by the phase choice,
a new maximum current in CHARGE, or in WAIT_GRANT for it, files the claim again, and an enable that is neither is BAD_VALUE.
The expiries carry the rest of their time (notes/assumptions/3.md), and outside an open cycle they change nothing
(notes/assumptions/8.md). -/
def Obligations.PenTimersAndSettings : Prop :=
  ∀ (tag e : Byte) (rest : List Byte) (mv : Nat) (temp : Int) (ma : Nat) (s : State), rest.length = 5 →
    let p := e :: rest
    let asked : PenSettings :=
      { enable := if e = 0#8 then .enabled else .disabled, maxCurrent := u8 p 1, recharge := u8 p 2
        termination := u8 p 3, safety := u16 p 4 }
    let new : PenSettings :=
      { asked with
        maxCurrent := max 50 (min 250 asked.maxCurrent), recharge := max 50 (min 98 asked.recharge)
        termination := max 5 (min 50 asked.termination), safety := max 30 (min 360 asked.safety) }
    let charging := s.pdc.state = .precharge ∨ s.pdc.state = .charge ∨ s.pdc.state = .topoff
    let low := min 300 ma < s.settings.pen.termination
    let host := SuspendReason.host.idx
    (s.held = none → s.pdc.cycleOpen = true → s.pdc.state = .precharge →
      ∃ t : State, exec .prechargeTimerExpiry s = .next t ∧
        faultStands .prechargeTimer 3 (advance (1800000 - s.pdc.prechargeMs) s) t) ∧
    (s.held = none → s.pdc.cycleOpen = true → charging →
      ∃ t : State, exec .safetyTimerExpiry s = .next t ∧
        faultStands .safetyTimer 4 (advance (s.pdc.limitMin * 60000 - s.pdc.chargeMs) s) t) ∧
    (s.held = none → (s.pdc.cycleOpen = false ∨ s.pdc.state ≠ .precharge) → exec .prechargeTimerExpiry s = .next s) ∧
    (s.held = none → (s.pdc.cycleOpen = false ∨ ¬ charging) → exec .safetyTimerExpiry s = .next s) ∧
    (s.held = none → s.sm.scanning = true → s.pdc.state = .topoff → s.pdc.grant = 100 →
      bandOf s.sm.supply (min 5000 mv) = s.sm.supply → heatOf s.sm.thermal (max (-40) (min 125 temp)) = s.sm.thermal →
      ∃ t : State, exec (.scanCompletion mv temp ma) s = .next t ∧
        (¬ low → t.pdc = { s.pdc with runStart := none }) ∧
        (low → s.pdc.runStart = none → t.pdc = { s.pdc with runStart := some s.now }) ∧
        (low → ∀ r, s.pdc.runStart = some r → s.now < r + 3000 → t.pdc = s.pdc) ∧
        (low → ∀ r, s.pdc.runStart = some r → r + 3000 ≤ s.now → fullStands s t)) ∧
    (Ready .setPenCharging s → e.toNat ≤ 1 →
      ∃ t : State, exec (.setPenCharging tag p) s = .next t ∧ t.settings = { s.settings with pen := new } ∧
        Answered .setPenCharging tag
          { result := if new = asked then .ok else .clamped, content := .penSettings new } t ∧
        t.pdc.reasons = (if new.enable = .disabled then bitAdd s.pdc.reasons host else bitDrop s.pdc.reasons host) ∧
        (new.enable = .disabled → s.pdc.reasons = 0 → (charging ∨ s.pdc.state = .waitGrant) →
          t.pdc.state = .suspended ∧ t.pdc.setpoint = 0 ∧ t.rba.pen = none) ∧
        (new.enable = .enabled → s.pdc.state = .suspended → s.pdc.reasons = bitAdd 0 host →
          ∀ st, s.pdc.last = some st → st.cellFault = false →
            (s.pdc.cycleOpen = false → new.recharge ≤ st.charge → fullStands s t) ∧
            (s.pdc.cycleOpen = true ∨ st.charge < new.recharge →
              cycleRuns new s t ∧ phaseOf new st.cell fun ph amount => phaseFiled ph amount s t)) ∧
        (new.enable = .enabled → s.pdc.reasons = 0 → new.maxCurrent ≠ s.settings.pen.maxCurrent →
          (s.pdc.state = .charge ∨ (s.pdc.state = .waitGrant ∧ s.pdc.remembered = some .charge)) →
          phaseFiled .charge new.maxCurrent s t) ∧
        ((s.pdc.state ≠ .charge ∧ (s.pdc.state ≠ .waitGrant ∨ s.pdc.remembered ≠ some .charge) ∨
            new.maxCurrent = s.settings.pen.maxCurrent) →
          (new.enable = .enabled ∧ (s.pdc.state ≠ .suspended ∨ bitDrop s.pdc.reasons host ≠ 0 ∨ s.pdc.reasons = 0)) ∨
            (new.enable = .disabled ∧ ¬ charging ∧ s.pdc.state ≠ .waitGrant) →
          t.pdc = { s.pdc with reasons := t.pdc.reasons } ∧ t.rba = s.rba) ∧
        Changes (([.penSettings, .assembler] : List Part) ++ penParts) s t) ∧
    (Ready .setPenCharging s → 1 < e.toNat →
      exec (.setPenCharging tag p) s =
        .next (replied .setPenCharging tag p { result := .badValue, content := .none } s))

/-- The pen as it must stand: PDC's grant is the one of the grant table, the setpoint stays within it and is 0 outside the
charging phases, no suspend reason stands while a pen charges or waits for a grant, SUPPLY is among the reasons while the
band is CRITICAL, and outside FAULT the cycle's charge time stays within its safety limit. -/
def Sys2Proof.Claims.penHolds (s : State) : Prop :=
  s.rba.grants = grantTable s.rba.capacity s.rba.base s.rba.latch s.rba.pen ∧ s.pdc.grant = s.rba.grants.pen ∧
  s.pdc.setpoint ≤ s.pdc.grant ∧ (PdcState.charging s.pdc.state = false → s.pdc.setpoint = 0) ∧
  (PdcState.charging s.pdc.state = true ∨ s.pdc.state = .waitGrant → s.pdc.reasons = 0) ∧
  (s.sm.supply = .critical → bitHas s.pdc.reasons SuspendReason.supply.idx = true) ∧ lawChargeTime s

/-- The pen's three laws of the part (R129, R138), with what they need to hold from step to step. -/
def Obligations.StepKeepsPenLaws : Prop :=
  (∀ s t : State, penHolds s → step s = .next t → penHolds t) ∧
  (∀ s : State, penHolds s → lawSetpoint s ∧ lawChargeTime s)

/-! ## Sleep, wake and part modes (Chapter 8) -/

/-- SPU's state after a HOST_STATE, by the table of R146; into AWAKE, a matured trigger makes it ADVISED (R151). -/
def Sys2Proof.Claims.hostTable (v : HostView) (u : Spu) : SpuState :=
  let up : SpuState :=
    if u.lid.matured = true ∨ u.faceDown.matured = true ∨ u.supply.matured = true then .advised else .awake
  match v, u.state with
  | .running, .awake => .awake
  | .running, .advised => .advised
  | .running, _ => up
  | .suspending, _ => .suspending
  | .suspended, .suspending => if u.pending = 0 then .asleep else .waking
  | .suspended, .waking => .waking
  | .suspended, _ => .asleep
  | .off, _ => .off

/-- The part mode of R159. -/
def Sys2Proof.Claims.modeOf (s : State) : PartMode :=
  if s.spu.host = .running ∨ s.spu.host = .suspending ∨ s.spu.state = .waking then .active
  else if s.pdc.state ≠ .empty ∧ s.pdc.state ≠ .full ∧ s.pdc.state ≠ .fault then .watch
  else if s.bm.state = .detachAsked ∨ s.bm.state = .releasing ∨ s.bm.state = .closing then .watch
  else if s.spu.state = .asleep ∧ s.settings.wake.postureChanged.enable = .enabled then .watch
  else if s.settings.sleep.track = true then .watch
  else .halt

/-- The scan period of a part mode (6.1). -/
def Sys2Proof.Claims.scanMs : PartMode → Nat
  | .active => 100
  | .watch => 1000
  | .halt => 8000

/-- What the part mode of `t` makes of the four blocks that a change of it reaches (R160): SFE's period, reader and discard mark,
and both filters empty on leaving HALT (R6); the scan period (R102); the stream quiesced, resumed or given its new period (R71,
R72); the fresh flag and the abstain run cleared at HALT and with the discontinuity of leaving it, which starts the lock machines
over (R48, R57). -/
def Sys2Proof.Claims.modeActs (s t : State) : Prop :=
  let old := s.spu.mode
  let new := t.spu.mode
  let runs := BmState.hasBase s.bm.state = true ∧ s.bm.stream = .running
  let wanted := s.bm.state = .attached ∨ s.bm.state = .detachAsked
  t.sfe.period = (if new = .halt then none else some (s.now + if s.sfe.fault = true then 1000 else readMs new)) ∧
  t.sm.periodMs = scanMs new ∧ t.sm.period = some (s.now + scanMs new) ∧ t.sm.scanning = s.sm.scanning ∧
  (new = .halt →
    t.sfe.reader = .stopped ∧ t.sfe.discard = (s.sfe.discard || decide (s.sfe.reader = .reading)) ∧
    t.pe.fresh = false ∧ t.pe.abstainRun = 0 ∧ t.pe.posture = s.pe.posture ∧ t.pe.orient = s.pe.orient ∧
    (runs → t.bm.stream = .pausing ∧ t.bm.quiesce = some (s.now + 50) ∧ t.btx = s.btx ++ [.quiesce] ∧
      t.sfe.view = .paused)) ∧
  (old = .halt →
    t.sfe.reader = (if s.sfe.discard = true then .reading else .idle) ∧ t.sfe.discard = s.sfe.discard ∧
    t.sfe.dFilter = none ∧ t.sfe.bFilter = none ∧ t.pe.fresh = false ∧ t.pe.abstainRun = 0 ∧
    (s.pe.posture.state = .acquiring ∨ s.pe.posture.state = .locked →
      t.pe.posture = { state := .acquiring, value := s.pe.posture.value, pending := none, run := 0 }) ∧
    (s.pe.orient.state = .acquiring ∨ s.pe.orient.state = .locked →
      t.pe.orient = { state := .acquiring, value := s.pe.orient.value, pending := none, run := 0 }) ∧
    (wanted → s.bm.stream ≠ .running →
      t.bm.stream = .running ∧ t.bm.quiesce = none ∧ t.btx = s.btx ++ [.setPeriod (readMs new)] ∧
      t.sfe.view = .running)) ∧
  (old ≠ .halt → new ≠ .halt →
    t.sfe.reader = s.sfe.reader ∧ t.sfe.discard = s.sfe.discard ∧ t.sfe.dFilter = s.sfe.dFilter ∧
    (runs →
      t.bm = s.bm ∧ t.btx = s.btx ++ [.setPeriod (readMs new)] ∧ t.sfe.bFilter = s.sfe.bFilter ∧ t.pe = s.pe))

/-- HOST_STATE (R145, R146, R151, R153, R155, R158, R160): the view becomes the host's, SPU's state moves by the table and is told
in the reply; leaving WAKING ends the episode and reports it, a pending cause starts one at SUSPENDED, the sets are emptied as
the table's rows say, and RUNNING into AWAKE advises every matured trigger at once. (A change of part mode that the same
command causes may end the FACE_DOWN condition afterwards, R57, R150: the advised set is stated without it there.) The part
mode is then the one of R159, and a change of it acts on SFE, SM, BM and PE. A code that names no state is BAD_VALUE. -/
def Obligations.HostStateMovesSpu : Prop :=
  ∀ (tag b : Byte) (v : HostView) (s : State), Ready .hostState s →
    let up := v = .running ∧ s.spu.state ≠ .awake ∧ s.spu.state ≠ .advised
    let steady := s.spu.view = viewOf s.pe ∧ ∀ tr : Trigger, (triggerRec tr s.spu).holds = triggerHolds tr s
    (3 < b.toNat →
      exec (.hostState tag [b]) s = .next (replied .hostState tag [b] { result := .badValue, content := .none } s)) ∧
    (hostViewOf b.toNat = some v →
      ∃ t : State, exec (.hostState tag [b]) s = .next t ∧ t.spu.host = v ∧
        Answered .hostState tag { result := .ok, content := .host v (hostTable v s.spu) } t ∧
        (v = .running → t.spu.state = .awake ∨ t.spu.state = .advised) ∧
        (v ≠ .running → t.spu.state = hostTable v s.spu) ∧
        (v = .off ∨ (v = .suspending ∧ s.spu.state ≠ .suspending) → t.spu.pending = 0 ∧ t.spu.advised = 0) ∧
        (v = .suspended → (s.spu.state = .awake ∨ s.spu.state = .advised ∨ s.spu.state = .off) → t.spu.advised = 0) ∧
        (v = .running → s.spu.state = .suspending → t.spu.pending = 0) ∧
        (up → s.spu.mode = .active →
          (∀ tr : Trigger, bitHas t.spu.advised tr.idx = (triggerRec tr s.spu).matured) ∧
          t.spu.state = hostTable v s.spu) ∧
        (up → steady → ∀ tr : Trigger, tr ≠ .faceDown →
          bitHas t.spu.advised tr.idx = (triggerRec tr s.spu).matured) ∧
        (v = .off ∨ up → t.spu.lidConfirm = none) ∧
        (v = .off ∨ (v ≠ .suspended ∧ s.spu.state = .waking) →
          t.spu.hwake = false ∧ t.spu.wake = none ∧ t.spu.gap = none ∧ t.spu.causes = 0 ∧ t.spu.attempt = 0 ∧
          t.spu.limit = none) ∧
        (v = .suspended → s.spu.state = .suspending → s.spu.pending ≠ 0 →
          episodeBegun s.spu.pending s t ∧ t.spu.pending = 0) ∧
        (bitHas s.lc.grant EventClass.sleep.idx = true →
          (v = .running → s.spu.state = .asleep → Queued (.wakeReport 0 0) t) ∧
          (v = .running ∨ v = .suspending → s.spu.state = .waking →
            Queued (.wakeReport s.spu.causes s.spu.attempt) t) ∧
          (up → hostTable v s.spu = .advised →
            ∃ set : BitVec 3, (∀ tr : Trigger, bitHas set tr.idx = (triggerRec tr s.spu).matured) ∧
              Queued (.sleepAdvice set set) t)) ∧
        t.spu.mode = modeOf t ∧ (t.spu.mode ≠ s.spu.mode → modeActs s t) ∧
        Changes (([.assembler, .host, .lidConfirm] : List Part) ++ wakeParts) s t)

/-- A counted cause by SPU's state (R152, R154): kept pending in SUSPENDING, it starts an episode in ASLEEP and joins the
causes in WAKING; elsewhere it is lost. -/
def Sys2Proof.Claims.causeTaken (c : WakeCause) (u t : State) : Prop :=
  match u.spu.state with
  | .asleep => episodeBegun (bitAdd 0 c.idx) u t
  | .suspending => t.spu.pending = bitAdd u.spu.pending c.idx ∧ t.spu.state = .suspending
  | .waking => t.spu.causes = bitAdd u.spu.causes c.idx ∧ t.spu.state = .waking ∧ t.spu.attempt = u.spu.attempt
  | .awake | .advised | .off => t.spu.state = u.spu.state ∧ t.spu.pending = u.spu.pending ∧ t.spu.causes = u.spu.causes

/-- SPU's timers (R147, R149, R153, R156, R157): a trigger that has held its time matures and advises a host that is awake;
a confirmed lid is the cause LID_OPENED; an unanswered attempt is followed, after 100 ms, by the next one up to the limit, and
the last one fails with HOST_WAKE_FAIL, its attempts as detail, and SPU falls back to ASLEEP.
The expiry commands carry the rest of their time (notes/assumptions/3.md), and an expiry or completion of nothing changes nothing
(notes/assumptions/8.md). -/
def Obligations.SleepTimers : Prop :=
  ∀ (d : Nat) (tr : Trigger) (s : State), s.held = none →
    let u := runTo d s
    let ripe : Spu := setTrigger tr { triggerRec tr s.spu with timer := none, matured := true } s.spu
    let opened := s.settings.wake.lidOpened
    let put : Spu → State := fun w => { u with spu := w }
    ((triggerRec tr s.spu).timer = some d →
      ((s.spu.state = .awake ∨ s.spu.state = .advised) →
        ∃ t : State, exec (.triggerTimerExpiry tr) s = .next t ∧
          t.spu = { ripe with advised := bitAdd s.spu.advised tr.idx, state := .advised } ∧
          (s.lc.tx.isSome = true → bitHas s.lc.grant EventClass.sleep.idx = true →
            Queued (.sleepAdvice (bitAdd 0 tr.idx) (bitAdd s.spu.advised tr.idx)) t) ∧
          Changes [.now, .charging, .spuState, .triggers, .link, .queue] s t) ∧
      (s.spu.state ≠ .awake → s.spu.state ≠ .advised → exec (.triggerTimerExpiry tr) s = .next (put ripe))) ∧
    ((triggerRec tr s.spu).timer = none → exec (.triggerTimerExpiry tr) s = .next s) ∧
    (s.spu.lidConfirm = some d →
      ((opened.enable = .disabled ∨ bitHas opened.mask s.spu.view.posture.code = false) →
        exec .lidConfirmTimerExpiry s = .next (put { s.spu with lidConfirm := none })) ∧
      (opened.enable = .enabled → bitHas opened.mask s.spu.view.posture.code = true →
        ∃ t : State, exec .lidConfirmTimerExpiry s = .next t ∧ t.spu.lidConfirm = none ∧ causeTaken .lidOpened u t ∧
          Changes (([.now, .charging, .lidConfirm] : List Part) ++ wakeParts) s t)) ∧
    (s.spu.lidConfirm = none → exec .lidConfirmTimerExpiry s = .next s) ∧
    (s.spu.state = .waking → s.spu.wake = some d →
      (s.spu.attempt < s.spu.limit.getD 0 →
        exec .wakeTimerExpiry s = .next (put { s.spu with hwake := false, wake := none, gap := some (u.now + 100) })) ∧
      (s.spu.limit.getD 0 ≤ s.spu.attempt →
        ∃ t : State, exec .wakeTimerExpiry s = .next t ∧ t.spu.state = .asleep ∧ t.spu.hwake = false ∧
          t.spu.wake = none ∧ t.spu.attempt = 0 ∧ t.spu.limit = none ∧ t.spu.causes = 0 ∧
          Rose .hostWakeFail s.spu.attempt u t ∧
          Changes (([.now, .charging, .latched, .history] : List Part) ++ wakeParts) s t)) ∧
    (s.spu.state = .waking → s.spu.gap = some d →
      exec .gapTimerExpiry s =
        .next (put { s.spu with
          gap := none, attempt := s.spu.attempt + 1, hwake := true
          wake := some (u.now + s.settings.sleep.wakeTimeout) })) ∧
    (s.spu.state ≠ .waking ∨ s.spu.wake = none → exec .wakeTimerExpiry s = .next s) ∧
    (s.spu.state ≠ .waking ∨ s.spu.gap = none → exec .gapTimerExpiry s = .next s)

/-- SET_SLEEP_POLICY and SET_WAKE_CAUSES (R162, R163): the whole record is replaced, times and the attempt limit clamped; a
trigger that is disabled while its condition holds goes back to idle and leaves the advised set, one that is enabled is
evaluated at once (R147; FACE_DOWN is stated where the part mode stays); the part mode is chosen again, and a change of it acts
on SFE, SM, BM and PE (R159, R160); a value that an enable, TRACK or a mask cannot take is BAD_VALUE and changes nothing. -/
def Obligations.SleepSettings : Prop :=
  ∀ (tag : Byte) (p w : List Byte) (s : State), p.length = 13 → w.length = 12 →
    let enable : Nat → Enable := fun x => if x = 0 then .enabled else .disabled
    let asked : SleepPolicy :=
      { lid := enable (u8 p 0), faceDown := enable (u8 p 1), supply := enable (u8 p 2), lidGrace := u16 p 3
        faceDownTime := u16 p 5, lidConfirm := u16 p 7, wakeTimeout := u16 p 9, attemptLimit := u8 p 11
        track := decide (u8 p 12 = 1) }
    let new : SleepPolicy :=
      { asked with
        lidGrace := max 0 (min 10000 asked.lidGrace), faceDownTime := max 1000 (min 60000 asked.faceDownTime)
        lidConfirm := max 0 (min 2000 asked.lidConfirm), wakeTimeout := max 500 (min 10000 asked.wakeTimeout)
        attemptLimit := max 1 (min 5 asked.attemptLimit) }
    let known := u8 p 0 ≤ 1 ∧ u8 p 1 ≤ 1 ∧ u8 p 2 ≤ 1 ∧ u8 p 12 ≤ 1
    let row : Nat → WakeEntry := fun k => ⟨enable (u8 w (2 * k)), BitVec.ofNat 7 (u8 w (2 * k + 1))⟩
    let rows := ∀ k ∈ List.range 6, u8 w (2 * k) ≤ 1 ∧ u8 w (2 * k + 1) < 128
    let table : WakeTable :=
      { lidOpened := row 0, penRemoved := row 1, penInserted := row 2, baseAttached := row 3, detachButton := row 4
        postureChanged := row 5 }
    (Ready .setSleepPolicy s → known →
      ∃ t : State, exec (.setSleepPolicy tag p) s = .next t ∧ t.settings = { s.settings with sleep := new } ∧
        Answered .setSleepPolicy tag { result := if new = asked then .ok else .clamped, content := .sleepPolicy new } t ∧
        (∀ tr : Trigger, triggerEnable tr s.settings.sleep = .enabled → triggerEnable tr new = .disabled →
          triggerMoves tr false new s t) ∧
        (∀ tr : Trigger, triggerEnable tr s.settings.sleep = .disabled → triggerEnable tr new = .enabled →
          (t.spu.mode = s.spu.mode ∨ (tr ≠ .faceDown ∧ s.spu.view = viewOf s.pe)) →
          triggerMoves tr (condition new s.spu.view s.sm.supply tr) new s t) ∧
        (∀ tr : Trigger, triggerEnable tr s.settings.sleep = triggerEnable tr new → t.spu.mode = s.spu.mode →
          triggerRec tr t.spu = triggerRec tr s.spu) ∧
        t.spu.mode = modeOf t ∧ (t.spu.mode ≠ s.spu.mode → modeActs s t) ∧
        Changes (([.sleepPolicy, .triggers, .assembler] : List Part) ++ modeParts) s t) ∧
    (Ready .setSleepPolicy s → ¬ known →
      exec (.setSleepPolicy tag p) s =
        .next (replied .setSleepPolicy tag p { result := .badValue, content := .none } s)) ∧
    (Ready .setWakeCauses s → rows →
      ∃ t : State, exec (.setWakeCauses tag w) s = .next t ∧ t.settings = { s.settings with wake := table } ∧
        Answered .setWakeCauses tag { result := .ok, content := .wakeTable table } t ∧ t.spu.mode = modeOf t ∧
        (t.spu.mode ≠ s.spu.mode → modeActs s t) ∧
        Changes (([.wakeTable, .assembler] : List Part) ++ modeParts) s t) ∧
    (Ready .setWakeCauses s → ¬ rows →
      exec (.setWakeCauses tag w) s =
        .next (replied .setWakeCauses tag w { result := .badValue, content := .none } s))

/-- Wake as it must stand: the attempt limit is at least 1, HWAKE is asserted only in WAKING, an episode counts no more
attempts than its limit, and in a gap it has not reached it. -/
def Sys2Proof.Claims.wakeHolds (s : State) : Prop :=
  1 ≤ s.settings.sleep.attemptLimit ∧ lawWake s ∧ (s.spu.gap.isSome = true → s.spu.attempt < s.spu.limit.getD 0)

/-- R156: HWAKE is asserted only in WAKING, and an episode makes no more attempts than its limit; R159: the part mode is
the one that the host, SPU, PDC, BM and the settings call for. Every step keeps both so. -/
def Obligations.StepKeepsSleepLaws : Prop :=
  (∀ s t : State, wakeHolds s → step s = .next t → wakeHolds t) ∧
  (∀ s t : State, s.spu.mode = modeOf s → step s = .next t → t.spu.mode = modeOf t)

/-! ## Conditions, history and uptime (Chapter 9) -/

/-- CLEAR_CONDITIONS (R167) clears the latched flags named whose live flag is clear, and with the mark 1 empties the ring,
without touching the sequence counter; a set or a mark that names nothing is BAD_VALUE. A whole second raises the uptime by
one (R175); its command carries the rest of the second (the model's choice, notes/assumptions/3.md). -/
def Obligations.ClearConditionsAndUptime : Prop :=
  ∀ (tag lo hi mark : Byte) (s : State),
    let p := [lo, hi, mark]
    let n := lo.toNat + 256 * hi.toNat
    let asked := BitVec.ofNat 14 n
    let latched := s.cm.latched &&& ~~~ (asked &&& ~~~ s.cm.live)
    (Ready .clearConditions s → n < 16384 → mark.toNat ≤ 1 →
      exec (.clearConditions tag p) s =
        .next (replied .clearConditions tag p { result := .ok, content := .cleared (asked &&& s.cm.live) latched }
          { s with cm := { s.cm with latched := latched, ring := if mark = 1#8 then [] else s.cm.ring } })) ∧
    (Ready .clearConditions s → (16384 ≤ n ∨ 1 < mark.toNat) →
      exec (.clearConditions tag p) s =
        .next (replied .clearConditions tag p { result := .badValue, content := .none } s)) ∧
    (s.held = none →
      exec .uptimeTick s =
        .next { runTo s.nextSecond s with
          nextSecond := s.nextSecond + 1000, cm := { s.cm with uptime := s.cm.uptime + 1 } })

/-- Conditions as they must stand: a live condition is latched and of a state kind, and the ring holds at most 16 records
whose sequence numbers run without a gap up to the counter. -/
def Sys2Proof.Claims.conditionsHold (s : State) : Prop :=
  lawLatched s ∧ (∀ c : Cond, c.isState = false → bitHas s.cm.live c.idx = false) ∧ s.cm.ring.length ≤ 16 ∧
  s.cm.ring.map (·.seq) =
    (List.range s.cm.ring.length).map fun i => s.cm.next - BitVec.ofNat 16 (s.cm.ring.length - i)

/-! ## The settings store (Chapter 11) -/

/-- The defaults of every setting, with an empty paired-base table: the tuning record of 3.9, the sleep policy and the wake-cause
table of Chapter 8 (every posture value in a mask, PEN_REMOVED's without CLOSED), the detach policy of Chapter 5, the acceptance
policy of R79 and the pen settings of Chapter 7. -/
def Sys2Proof.Claims.defaults : Settings :=
  { tuning :=
      { depth := 2, hall := 30, divider := 5, hingeFloor := 1024, tiltFloor := 1536, postureAcquire := 3
        postureChange := 6, orientAcquire := 2, orientChange := 4, postureMargin := 128, standTentMargin := 512
        orientMargin := 240, staleLimit := 50 }
    sleep :=
      { lid := .enabled, faceDown := .enabled, supply := .enabled, lidGrace := 500, faceDownTime := 5000, lidConfirm := 300
        wakeTimeout := 2000, attemptLimit := 3, track := false }
    wake :=
      { lidOpened := ⟨.enabled, 0b1111111#7⟩, penRemoved := ⟨.enabled, 0b1111101#7⟩, penInserted := ⟨.disabled, 0b1111111#7⟩
        baseAttached := ⟨.enabled, 0b1111111#7⟩, detachButton := ⟨.disabled, 0b1111111#7⟩
        postureChanged := ⟨.disabled, 0b1111111#7⟩ }
    detach := { standing := .allow, timeoutAction := .deny, consentTimeout := 2000, window := 3000 }
    basePolicy := .accept
    pen := { enable := .enabled, maxCurrent := 200, recharge := 90, termination := 15, safety := 180 }
    table := [] }

/-- SAVE_SETTINGS and RESTORE_DEFAULTS (R197, R198): a save waits, taken, for the commit that covers it; the defaults replace
every setting but the paired-base table, the reply is OK, and a commit is requested.
The checksum of an image in writing, and the layout it sums, are the model's choices (notes/assumptions/16.md, 5.md). -/
def Obligations.SaveAndRestore : Prop :=
  ∀ (tag : Byte) (s : State),
    let place := freePlace s.lc.slots
    let taken := inSlot .saveSettings tag [] .taken s
    (Ready .saveSettings s → s.ss.state = .idle →
      exec (.saveSettings tag []) s =
        .next { taken with
          ss :=
            { image := { s.ss.image with checksum := imageSum s.ss.image.content + 1#16 }
              state := .writing, attempt := some 1, snapshot := some s.settings, pending := false
              waiting := (s.ss.waiting.map fun w => { w with mark := .running }) ++ [⟨place, .running⟩] } }) ∧
    (Ready .saveSettings s → s.ss.state ≠ .idle →
      exec (.saveSettings tag []) s =
        .next { taken with ss := { s.ss with pending := true, waiting := s.ss.waiting ++ [⟨place, .pending⟩] } }) ∧
    (Ready .restoreDefaults s →
      ∃ t : State, exec (.restoreDefaults tag []) s = .next t ∧
        t.settings = { defaults with table := s.settings.table } ∧
        Answered .restoreDefaults tag { result := .ok, content := .none } t ∧ commitAsked s t ∧
        (s.settings.tuning.depth ≠ 2 → t.sfe.dFilter = none ∧ t.sfe.bFilter = none ∧ t.pe.fresh = false) ∧
        bitHas t.pdc.reasons SuspendReason.host.idx = false ∧
        Changes (([.tuning, .sleepPolicy, .wakeTable, .detachPolicy, .basePolicy, .penSettings, .display, .baseSamples,
          .divider, .assembler, .image, .commit] : List Part) ++ penParts) s t)

/-- The two operations of a commit (R195, R197): the write leaves what the array then holds, the comparison ends a sound
commit, answers its saves with WRITTEN and the attempts made, and starts a commit that has been asked for meanwhile; a first
unsound image is written again, a second one fails the commit with STORE_WRITE_FAIL and leaves the image invalid.
The operand of COMMIT_WRITE_DONE, what marks an image invalid, the layout that a checksum sums and what the comparison covers
are the model's choices (notes/assumptions/17.md, 16.md, 5.md, 34.md), and a completion of nothing changes nothing (8). -/
def Obligations.CommitOperations : Prop :=
  ∀ (faulty : Option Image) (w : Settings) (n : Nat) (s : State), s.held = none → s.ss.snapshot = some w →
    s.ss.attempt = some n →
    let broken : Image := { s.ss.image with checksum := imageSum s.ss.image.content + 1#16 }
    let sound := s.ss.image = imageOf w
    let ended : Bool → State → Prop := fun written t =>
      (s.ss.pending = false →
        t.ss.state = .idle ∧ t.ss.attempt = none ∧ t.ss.snapshot = none ∧ t.ss.pending = false) ∧
      (s.ss.pending = true →
        t.ss.state = .writing ∧ t.ss.attempt = some 1 ∧ t.ss.snapshot = some s.settings ∧ t.ss.pending = false ∧
        checksumOk t.ss.image = false) ∧
      (∀ x ∈ t.ss.waiting, x.mark = if s.ss.pending = true then .running else .pending) ∧
      (s.lc.tx.isSome = true → ∀ x ∈ s.ss.waiting, x.mark = .running → ∀ sl ∈ s.lc.slots, sl.place = x.place →
        Answered sl.kind sl.tag { result := .ok, content := .saved written n } t)
    (s.ss.state = .writing →
      exec (.commitWriteDone faulty) s =
        .next { s with ss := { s.ss with state := .verifying, image := faulty.getD (imageOf w) } }) ∧
    (s.ss.state ≠ .writing → exec (.commitWriteDone faulty) s = .next s) ∧
    (s.ss.state = .verifying → sound →
      ∃ t : State, exec .commitVerifyDone s = .next t ∧ ended true t ∧ (s.ss.pending = false → t.ss.image = imageOf w) ∧
        Changes [.image, .commit, .link, .queue] s t) ∧
    (s.ss.state = .verifying → ¬ sound → n = 1 →
      exec .commitVerifyDone s =
        .next { s with ss := { s.ss with state := .writing, attempt := some 2, image := broken } }) ∧
    (s.ss.state = .verifying → ¬ sound → n ≠ 1 →
      ∃ t : State, exec .commitVerifyDone s = .next t ∧ ended false t ∧ checksumOk t.ss.image = false ∧
        Rose .storeWriteFail 2 s t ∧ Changes [.latched, .history, .image, .commit, .link, .queue] s t) ∧
    (s.ss.state ≠ .verifying → exec .commitVerifyDone s = .next s)

/-- The store as it must stand: outside IDLE there is a snapshot and a first or second attempt, in IDLE none and no commit
asked for, and while the image is being written it fails its check. -/
def Sys2Proof.Claims.storeHolds (s : State) : Prop :=
  (s.ss.state = .idle → s.ss.attempt = none ∧ s.ss.snapshot = none ∧ s.ss.pending = false) ∧
  (s.ss.state ≠ .idle → s.ss.snapshot.isSome = true ∧ (s.ss.attempt = some 1 ∨ s.ss.attempt = some 2)) ∧
  (s.ss.state = .writing → checksumOk s.ss.image = false)

/-- R165, R167, R170, R171: every step keeps the condition flags and the history ring as they must stand; R195: every step
keeps the store as it must stand. -/
def Obligations.StepKeepsConditionAndStoreLaws : Prop :=
  (∀ s t : State, conditionsHold s → step s = .next t → conditionsHold t) ∧
  (∀ s t : State, storeHolds s → step s = .next t → storeHolds t)

/-! ## Resets -/

/-- A magnet input at the end of a reset (R20); the hold time of a STEADY one is the model's choice
(notes/assumptions/24.md). -/
def Sys2Proof.Claims.magnetStarts (hall : Nat) (raw : Level) : MagnetRec :=
  match raw with
  | .released => { raw := .released, level := .released, debounce := .steady, hold := hall, timer := none }
  | .asserted => { raw := .asserted, level := .released, debounce := .changing, hold := hall, timer := some hall }

/-- CM at the end of a reset of a kind, before any block reports to it (R177): a reset during which VDD fell leaves nothing,
PIN and SOFT keep the latched flags, the counter and the ring, every record of it marked. -/
def Sys2Proof.Claims.cmStarts (k : ResetKind) (cm : Cm) : Cm :=
  match k with
  | .powerOn | .brownout => { live := 0, latched := 0, ring := [], next := 0, cause := k, uptime := 0 }
  | .pin | .soft =>
    { live := 0, latched := cm.latched, ring := cm.ring.map fun r => { r with earlier := true }, next := cm.next
      cause := k, uptime := 0 }

/-- The part at the end of a reset of a kind (R20, R21, R59, R80, R81, R100, R118, R119, R144, R164, R177, R192, R194): the
whole state, but for the free orders consulted. An image that passes its check gives the settings; a rejected one gives the
defaults, and STORE_CORRUPT rises over CM's records of R177. -/
def Sys2Proof.Claims.resetEnded (k : ResetKind) (s t : State) : Prop :=
  let w := t.settings
  let rejected := checksumOk s.ss.image = false ∨ readSettings s.ss.image.content = none
  let cm := cmStarts k s.cm
  (t.now = 0 ∧ t.nextSecond = 1000 ∧ t.held = none ∧ t.nrst = .released ∧ t.pending = s.pending ∧ t.btx = [] ∧
    t.queries = 0) ∧
  (t.ss = { image := s.ss.image, state := .idle, attempt := none, snapshot := none, pending := false, waiting := [] }) ∧
  (¬ rejected → readSettings s.ss.image.content = some w ∧ t.cm = cm) ∧
  (∀ x, s.ss.image = imageOf x → readSettings (rawSettings x) = some x → w = x) ∧
  (rejected → w = defaults ∧ ∃ r : HistoryRecord,
    t.cm =
      { cm with
        latched := bitAdd cm.latched Cond.storeCorrupt.idx, ring := ringAppend cm.ring r, next := cm.next + 1 } ∧
    r.seq = cm.next ∧ r.cond = .storeCorrupt ∧ r.detail = (if checksumOk s.ss.image = false then 1 else 2) ∧
    r.uptime = 0 ∧ r.host = .running ∧ r.earlier = false) ∧
  (t.sfe =
    { reader := .idle, discard := false, failures := 0, fault := false, period := some 20, readLimit := none
      dFilter := none, dRaw := none, dPlausible := none, bFilter := none, bRaw := none, moving := false
      lastArrival := none, staleRun := 0, late := false, lastStatus := none, view := .none
      lid := magnetStarts w.tuning.hall s.sfe.lid.raw, fold := magnetStarts w.tuning.hall s.sfe.fold.raw
      divider := 0 }) ∧
  (t.pe =
    { posture := { state := .held, value := .detached, pending := none, run := 0 }
      orient := { state := .acquiring, value := .unknown, pending := none, run := 0 }
      situation := .noBase, halt := false, fresh := false, abstainRun := 0, lastAbstain := .none
      reported := .unknown, closedFreeze := .unknown, rotationLock := false, lockValue := .unknown
      sequence := 0, theta := none, thetaCurrent := false, serial := none, offset := 0 }) ∧
  (t.bm =
    { state := (match s.bm.bpres with | .released => .absent | .asserted => .settling), bpres := s.bm.bpres
      settle := (match s.bm.bpres with | .released => none | .asserted => some 100)
      loss := none, bpwr := false, phase := none, cycling := none, queryOut := false, query := none
      identity := none, stream := .running, quiesce := none, newEntry := false, evicted := none, active := none }) ∧
  (t.det =
    { dbtn := s.det.dbtn, button := s.det.dbtn, debounce := .steady, hold := none, blink := none, origin := none
      path := none, deadline := .none, timer := none, energised := false, closing := none, unpowered := false
      outcome := none, lsol := false, lsw := s.det.lsw }) ∧
  (t.sm =
    { scanning := true, period := some 100, periodMs := 100, vsys := none, temp := none, penCurrent := none
      supply := .normal, supplyCandidate := none, thermal := .cool, thermalCandidate := none }) ∧
  (t.rba = { capacity := 600, base := none, latch := none, pen := none, grants := { base := 0, latch := 0, pen := 0 } }) ∧
  (t.pdc =
    { pdet := s.pdc.pdet, state := (match s.pdc.pdet with | .released => .empty | .asserted => .settling)
      settle := (match s.pdc.pdet with | .released => none | .asserted => some 200)
      removal := none, poll := none, response := none, outstanding := false, misses := 0, remembered := none
      reasons := if w.pen.enable = .disabled then bitAdd 0 SuspendReason.host.idx else 0
      fault := none, last := none, grant := 0, setpoint := 0, cycleOpen := false, chargeMs := 0, prechargeMs := 0
      limitMin := w.pen.safety, runStart := none }) ∧
  (t.spu =
    { host := .running, state := .awake
      view := { posture := .detached, lock := .held, fresh := false, reported := .unknown, orientLock := .acquiring }
      lid := { holds := false, timer := none, matured := false }
      faceDown := { holds := false, timer := none, matured := false }
      supply := { holds := false, timer := none, matured := false }
      advised := 0, pending := 0, causes := 0, lidConfirm := none, attempt := 0, limit := none, wake := none
      gap := none, hwake := false, mode := .active }) ∧
  (t.lc =
    { asm := { state := .hunt, expected := 0, body := [], sum := 0, gap := none }, slots := [], refusal := none
      tx := none, grant := 0, queue := [], lost := false, gateClosed := false, moments := 0 })

/-- The part while a reset of a kind is held: the outputs and the records at their reset values, what the reset keeps as it
was, the inputs' levels recorded. -/
def Sys2Proof.Claims.resetHeld (k : ResetKind) (n : Level) (s t : State) : Prop :=
  t.held = some k ∧ t.nrst = n ∧ t.lc = Lc.reset ∧ t.rba = Rba.reset ∧ t.sm = Sm.reset ∧ t.pe = Pe.initial ∧
  t.spu = Spu.initial ∧ t.bm = { Bm.reset with bpres := s.bm.bpres } ∧
  t.det = { Det.reset with dbtn := s.det.dbtn, button := s.det.dbtn, lsw := s.det.lsw } ∧
  t.pdc = { Pdc.reset with pdet := s.pdc.pdet } ∧
  (t.sfe.lid.raw = s.sfe.lid.raw ∧ t.sfe.fold.raw = s.sfe.fold.raw ∧ t.sfe.reader = .idle) ∧
  t.ss = Ss.ofImage s.ss.image ∧ t.pending = s.pending

/-- R176, R177, R194 with the reset values of every chapter: POWER_ON, BROWNOUT and the release of NRST end a reset of their
kind. NRST holds the part at its reset values from its assertion on; a fall of VDD in it names it (the later of two:
notes/assumptions/14.md), and NRST does not rename a reset that it holds. A SOFT reset begins at the end of the RESET_PART
reply; where it still stands, NRST extends it, and it is then PIN (that it may have ended already is the model's choice,
notes/assumptions/15.md). The timebase starts at 0 after a reset, and the hold time of a steady magnet input is the loaded one
(the model's choices, notes/assumptions/24.md). -/
def Obligations.Resets : Prop :=
  ∀ s : State,
    (s.nrst = .released →
      (∃ t : State, exec .powerOn s = .next t ∧ resetEnded .powerOn s t) ∧
      (∃ t : State, exec .brownout s = .next t ∧ resetEnded .brownout s t) ∧
      (s.held = none → ∃ t : State, exec .nrstAsserted s = .next t ∧ resetHeld .pin .asserted s t ∧ t.cm = s.cm) ∧
      (s.held = some .soft → ∃ t : State, exec .nrstAsserted s = .next t ∧ resetHeld .pin .asserted s t ∧
        (t.cm = s.cm ∨ ∃ u : State, resetEnded .soft s u ∧ t.cm = u.cm)) ∧
      (s.held = none → ∀ tag r, s.lc.tx = some (.reply .resetPart tag r) →
        ∃ t : State, exec .txFrameDone s = .next t ∧
          (resetEnded .soft s t ∨ (resetHeld .soft .released s t ∧ t.cm = s.cm))) ∧
      exec .nrstReleased s = .next s) ∧
    (s.nrst = .asserted →
      exec .nrstAsserted s = .next s ∧
      (∃ t : State, exec .powerOn s = .next t ∧ resetHeld .powerOn .asserted s t ∧ t.cm = s.cm) ∧
      (∃ t : State, exec .brownout s = .next t ∧ resetHeld .brownout .asserted s t ∧ t.cm = s.cm) ∧
      (∀ k, s.held = some k → ∃ t : State, exec .nrstReleased s = .next t ∧ resetEnded k s t))

/-- The invariants stated above hold right after reset, and a POWER_ON of the part that stands there leaves it as it is. -/
def Obligations.InvariantsHoldAtReset : Prop :=
  let s := State.reset
  (tuningInRange s.settings.tuning ∧ lawRuns s ∧ forcingHolds s ∧ lawForced s ∧ lawTable s) ∧
  (latchHolds s ∧ penHolds s ∧ lawGrants s ∧ s.rba.capacity = capacityOf s.sm.supply s.sm.thermal) ∧
  (wakeHolds s ∧ s.spu.mode = modeOf s ∧ conditionsHold s ∧ lawQueue s ∧ lawHold s ∧ lawSlots s ∧ lawSaves s ∧ lawWaiting s ∧
    storeHolds s) ∧
  exec .powerOn s = .next s
end

