-- ==== Sys2Proof/Laws/Changes.lean ====
section
/-! SUPPORT. How `Changes` is composed, and how it passes through the operations that take operations. -/

namespace Sys2Proof.Machine

theorem Changes.refl (m : List Part) (s : State) : Changes m s s := by
  refine ⟨fun p _ => ?_⟩; cases p <;> rfl

theorem Part.Same.trans {p : Part} {s t u : State} (h : p.Same s t) (g : p.Same t u) : p.Same s u := by
  cases p <;> exact Eq.trans g h

theorem Changes.trans {m : List Part} {s t u : State} (h : Changes m s t) (g : Changes m t u) : Changes m s u :=
  ⟨fun p hp => (h.same p hp).trans (g.same p hp)⟩

theorem Changes.mono {m n : List Part} {s t : State} (hmn : m ⊆ n) (h : Changes m s t) : Changes n s t :=
  ⟨fun p hp => h.same p fun q => hp (hmn q)⟩

/-- A step of a composition: the last operation changes no more than `a`. -/
theorem Changes.step {a m : List Part} {s t u : State} (h : Changes m s t) (g : Changes a t u) (ham : a ⊆ m) :
    Changes m s u := h.trans (g.mono ham)

/-- `Changes` to a state that is written out as a record. -/
def ChangesTo (m : List Part) (s : State) (x0 : Nat) (x1 : Nat) (x2 : Level) (x3 : Option ResetKind) (x4 : Settings) (x5 : Sfe) (x6 : Pe) (x7 : Bm) (x8 : Det) (x9 : Sm) (x10 : Rba) (x11 : Pdc) (x12 : Spu) (x13 : Cm) (x14 : Lc) (x15 : Ss) (x16 : List BaseTx) (x17 : Nat) (x18 : Nat) (x19 : List Instr) : Prop :=
  Changes m s ⟨x0, x1, x2, x3, x4, x5, x6, x7, x8, x9, x10, x11, x12, x13, x14, x15, x16, x17, x18, x19⟩

theorem changesTo_eq (m : List Part) (s : State) (x0 : Nat) (x1 : Nat) (x2 : Level) (x3 : Option ResetKind) (x4 : Settings) (x5 : Sfe) (x6 : Pe) (x7 : Bm) (x8 : Det) (x9 : Sm) (x10 : Rba) (x11 : Pdc) (x12 : Spu) (x13 : Cm) (x14 : Lc) (x15 : Ss) (x16 : List BaseTx) (x17 : Nat) (x18 : Nat) (x19 : List Instr) :
    Changes m s ⟨x0, x1, x2, x3, x4, x5, x6, x7, x8, x9, x10, x11, x12, x13, x14, x15, x16, x17, x18, x19⟩ = ChangesTo m s x0 x1 x2 x3 x4 x5 x6 x7 x8 x9 x10 x11 x12 x13 x14 x15 x16 x17 x18 x19 := rfl

/-- A record update over `t` is a step of a composition. -/
theorem ChangesTo.record {m : List Part} {s t : State} {x0 x1 x2 x3 x4 x5 x6 x7 x8 x9 x10 x11 x12 x13 x14 x15 x16 x17 x18 x19} (_ : x2 = State.nrst t) (h : Changes m s t)
    (g : Changes m t ⟨x0, x1, x2, x3, x4, x5, x6, x7, x8, x9, x10, x11, x12, x13, x14, x15, x16, x17, x18, x19⟩) : ChangesTo m s x0 x1 x2 x3 x4 x5 x6 x7 x8 x9 x10 x11 x12 x13 x14 x15 x16 x17 x18 x19 := h.trans g

/-- The parts are all of the state: where none may change, nothing does. -/
theorem Changes.nothing {s t : State} (h : Changes [] s t) : t = s := by
  have g : ∀ p : Part, p.Same s t := fun p => h.same p (by simp)
  rcases s with ⟨_, _, _, _, ⟨_, _, _, _, _, _, _⟩, ⟨_, _, _, _, _, _, _, _, _, _, _, _, _, _, _, _, _, _, _,
    _⟩, ⟨_, _, _, _, _, _, _, _, _, _, _, _, _, _, _, _⟩, ⟨_, _, _, _, _, _, _, _, _, _, _, _, _, _, _⟩, ⟨_, _,
    _, _, _, _, _, _, _, _, _, _, _, _, _⟩, ⟨_, _, _, _, _, _, _, _, _, _⟩, ⟨_, _, _, _, _⟩, ⟨_, _, _, _, _, _,
    _, _, _, _, _, _, _, _, _, _, _, _, _⟩, ⟨_, _, _, _, _, _, _, _, _, _, _, _, _, _, _, _⟩, ⟨_, _, _, _, _,
    _⟩, ⟨_, _, _, _, _, _, _, _, _⟩, ⟨_, _, _, _, _, _⟩, _, _, _, _⟩
  rcases t with ⟨_, _, _, _, ⟨_, _, _, _, _, _, _⟩, ⟨_, _, _, _, _, _, _, _, _, _, _, _, _, _, _, _, _, _, _,
    _⟩, ⟨_, _, _, _, _, _, _, _, _, _, _, _, _, _, _, _⟩, ⟨_, _, _, _, _, _, _, _, _, _, _, _, _, _, _⟩, ⟨_, _,
    _, _, _, _, _, _, _, _, _, _, _, _, _⟩, ⟨_, _, _, _, _, _, _, _, _, _⟩, ⟨_, _, _, _, _⟩, ⟨_, _, _, _, _, _,
    _, _, _, _, _, _, _, _, _, _, _, _, _⟩, ⟨_, _, _, _, _, _, _, _, _, _, _, _, _, _, _, _⟩, ⟨_, _, _, _, _,
    _⟩, ⟨_, _, _, _, _, _, _, _, _⟩, ⟨_, _, _, _, _, _⟩, _, _, _, _⟩
  cases g .now
  cases g .second
  cases g .reset
  cases g .tuning
  cases g .sleepPolicy
  cases g .wakeTable
  cases g .detachPolicy
  cases g .basePolicy
  cases g .penSettings
  cases g .table
  cases g .reader
  cases g .display
  cases g .baseSamples
  cases g .late
  cases g .baseView
  cases g .magnets
  cases g .divider
  cases g .locks
  cases g .forcing
  cases g .halt
  cases g .freshness
  cases g .abstain
  cases g .reported
  cases g .rotation
  cases g .hinge
  cases g .hingeBase
  cases g .presence
  cases g .bmState
  cases g .identify
  cases g .stream
  cases g .marks
  cases g .active
  cases g .button
  cases g .blink
  cases g .attempt
  cases g .lsol
  cases g .lsw
  cases g .scanner
  cases g .scanPeriod
  cases g .readings
  cases g .bands
  cases g .capacity
  cases g .claims
  cases g .penClaim
  cases g .grants
  cases g .garage
  cases g .polls
  cases g .charging
  cases g .penLast
  cases g .host
  cases g .spuState
  cases g .view
  cases g .triggers
  cases g .causes
  cases g .lidConfirm
  cases g .episode
  cases g .mode
  cases g .live
  cases g .latched
  cases g .history
  cases g .cause
  cases g .uptime
  cases g .assembler
  cases g .link
  cases g .grant
  cases g .queue
  cases g .gate
  cases g .image
  cases g .commit
  cases g .btx
  cases g .queries
  cases g .choices
  cases g .waiting
  rfl

/-- A command that the part takes only while it runs, where no SOFT reset is to end first. -/
theorem whileRunning_changes {m : List Part} {f : State → State} (h : ∀ s, Changes m s (f s)) (s : State)
    (hr : s.held = none ∨ s.nrst = .asserted) : Changes m s (whileRunning f s) := by
  unfold whileRunning; split
  · exact h s
  · exact Changes.refl _ _
  · simp_all

theorem onEnd_changes {m : List Part} {b : Bool} {f : State → State} (h : ∀ s, Changes m s (f s)) (s : State) :
    Changes m s (onEnd b f s) := by
  unfold onEnd; split
  · exact h s
  · exact Changes.refl _ _

/-- A change of an input pin, where no SOFT reset is to end first. -/
theorem onInput_changes {m : List Part} {g f : State → State} (hg : ∀ s, Changes m s (g s))
    (h : ∀ s, Changes m s (f s)) (s : State) (hr : s.held = none ∨ s.nrst = .asserted) :
    Changes m s (onInput g f s) := by
  unfold onInput; split
  · exact h s
  · exact hg s
  · simp_all

theorem advance_changes (d : Nat) (s : State) : Changes [.now, .charging] s (advance d s) := by
  refine ⟨fun p hp => ?_⟩
  cases p <;> first | rfl | exact absurd (by decide) hp | (simp only [Part.Same, advance, Pdc.elapse]; split <;> rfl)

theorem runTo_changes (d : Nat) (s : State) : Changes [.now, .charging] s (runTo d s) := advance_changes _ _

theorem onExpiry_changes {m : List Part} {t : Timer} {f : State → State} (hm : [.now, .charging] ⊆ m)
    (h : ∀ s, Changes m s (f s)) (s : State) : Changes m s (onExpiry t f s) := by
  unfold onExpiry; split
  · exact Changes.refl _ _
  · exact ((runTo_changes _ s).mono hm).trans (h _)

theorem nextChoice_changes (s : State) : Changes [.choices] s s.nextChoice := by
  refine ⟨fun p hp => ?_⟩; cases p <;> first | rfl | exact absurd (by decide) hp

theorem eitherOrder_changes {m : List Part} {f g : State → State} (hm : [.choices] ⊆ m) (hf : ∀ s, Changes m s (f s))
    (hg : ∀ s, Changes m s (g s)) (s : State) : Changes m s (eitherOrder f g s) := by
  have n := (nextChoice_changes s).mono hm
  unfold eitherOrder; split
  · exact (n.trans (hf _)).trans (hg _)
  · exact (n.trans (hg _)).trans (hf _)

theorem eitherTime_changes {a m : List Part} {act : State → State} {op : (State → State) → State → State}
    (hm : [.choices] ⊆ m) (ham : a ⊆ m) (ha : ∀ s, Changes a s (act s))
    (ho : ∀ g : State → State, (∀ s, Changes a s (g s)) → ∀ s, Changes m s (op g s)) (s : State) :
    Changes m s (eitherTime act op s) := by
  have n := (nextChoice_changes s).mono hm
  unfold eitherTime; split
  · exact (n.trans ((ha _).mono ham)).trans (ho id (fun t => Changes.refl a t) _)
  · exact n.trans (ho act ha _)

theorem anyOrder_changes {m : List Part} {f g h : State → State} (hm : [.choices] ⊆ m) (hf : ∀ s, Changes m s (f s))
    (hg : ∀ s, Changes m s (g s)) (hh : ∀ s, Changes m s (h s)) (s : State) : Changes m s (anyOrder f g h s) := by
  have n := (nextChoice_changes s).mono hm
  have n2 := (nextChoice_changes s.nextChoice).mono hm
  unfold anyOrder; split
  · exact (n.trans (hf _)).trans (eitherOrder_changes hm hg hh _)
  · split
    · exact ((n.trans n2).trans (hg _)).trans (eitherOrder_changes hm hf hh _)
    · exact ((n.trans n2).trans (hh _)).trans (eitherOrder_changes hm hf hg _)

theorem raceLc_changes {m : List Part} {f g : State → State} (hm : [.choices] ⊆ m) (hf : ∀ s, Changes m s (f s))
    (hg : ∀ s, Changes m s (g s)) (s : State) : Changes m s (raceLc f g s) := by
  unfold raceLc; split
  · exact (hg s).trans (hf _)
  · exact eitherOrder_changes hm hf hg s

end Sys2Proof.Machine
end

