-- ==== Sys2Proof/Laws/FramesLink.lean ====
section
/-! SUPPORT. What each operation may change, as one lemma per operation: the operations shared by all blocks. -/

set_option linter.unusedTactic false
set_option linter.unreachableTactic false

namespace Sys2Proof.Machine

theorem Lc.startReply_same (sl : Slot) (r : Reply) (lc : Lc) :
    (lc.startReply sl r).asm = lc.asm ∧ (lc.startReply sl r).grant = lc.grant ∧
    (lc.startReply sl r).gateClosed = lc.gateClosed ∧ (lc.startReply sl r).queue = lc.queue ∧
    (lc.startReply sl r).lost = lc.lost := ⟨rfl, rfl, rfl, rfl, rfl⟩

theorem Lc.startEvent_same (h : HostView) (lc : Lc) :
    (lc.startEvent h).asm = lc.asm ∧ (lc.startEvent h).grant = lc.grant ∧ (lc.startEvent h).gateClosed = lc.gateClosed := by
  unfold Lc.startEvent; split
  · exact ⟨rfl, rfl, rfl⟩
  · split <;> exact ⟨rfl, rfl, rfl⟩

/-- The transmitter's choice leaves the assembler, the grant and the gate as they are (R183). -/
theorem Lc.choose_same (h : HostView) (lc : Lc) :
    (lc.choose h).asm = lc.asm ∧ (lc.choose h).grant = lc.grant ∧ (lc.choose h).gateClosed = lc.gateClosed := by
  unfold Lc.choose; split
  · split <;> exact ⟨rfl, rfl, rfl⟩
  · exact ⟨rfl, rfl, rfl⟩
  · exact ⟨rfl, rfl, rfl⟩
  · exact Lc.startEvent_same h lc

theorem kick_changes (s : State) :
    Changes [.link, .queue] s (kick s) := by
  unfold kick; split
  · exact Changes.refl _ _
  · have c := Lc.choose_same s.spu.host s.lc
    refine ⟨fun p hp => ?_⟩
    cases p <;> first | exact absurd (by decide) hp | rfl | exact c.1 | exact c.2.1 | exact c.2.2

theorem Lc.enqueue_same (e : Event) (lc : Lc) :
    (lc.enqueue e).asm = lc.asm ∧ (lc.enqueue e).grant = lc.grant ∧ (lc.enqueue e).gateClosed = lc.gateClosed := by
  unfold Lc.enqueue; repeat' split
  all_goals exact ⟨rfl, rfl, rfl⟩

theorem offer_changes (e : Event) (s : State) :
    Changes [.link, .queue] s (offer e s) := by
  unfold offer; split
  · refine Changes.trans ?_ (kick_changes _)
    have c := Lc.enqueue_same e s.lc
    refine ⟨fun p hp => ?_⟩
    cases p <;> first | exact absurd (by decide) hp | rfl | exact c.1 | exact c.2.1 | exact c.2.2
  · exact Changes.refl _ _

theorem answerAll_changes (places : List Nat) (r : Reply) (s : State) :
    Changes [.link, .queue] s (answerAll places r s) := by
  unfold answerAll
  refine Changes.trans ?_ (kick_changes _)
  refine ⟨fun p hp => ?_⟩; cases p <;> first | exact absurd (by decide) hp | rfl

theorem answer_changes (place : Nat) (r : Reply) (s : State) :
    Changes [.link, .queue] s (answer place r s) := by
  exact answerAll_changes _ _ _

theorem refuse_changes (item : RefusalItem) (s : State) :
    Changes [.link, .queue] s (refuse item s) := by
  unfold refuse; split
  · exact Changes.refl _ _
  · refine Changes.trans ?_ (kick_changes _)
    refine ⟨fun p hp => ?_⟩; cases p <;> first | exact absurd (by decide) hp | rfl

theorem sendBase_changes (r : BaseTx) (s : State) :
    Changes [.btx] s (sendBase r s) := by
  unfold sendBase
  try dsimp only
  repeat' first
    | with_reducible exact Changes.refl _ _
    | (simp only [changesTo_eq]
       refine ChangesTo.record rfl ?_ ?_
       rotate_left 1
       (refine ⟨fun p hp => ?_⟩; cases p <;> first | exact absurd (by decide) hp | rfl))
    | split

theorem sendQuery_changes (s : State) :
    Changes [.queries] s (sendQuery s) := by
  unfold sendQuery
  try dsimp only
  repeat' first
    | with_reducible exact Changes.refl _ _
    | (simp only [changesTo_eq]
       refine ChangesTo.record rfl ?_ ?_
       rotate_left 1
       (refine ⟨fun p hp => ?_⟩; cases p <;> first | exact absurd (by decide) hp | rfl))
    | split

theorem rise_changes (c : Cond) (detail : Nat) (s : State) :
    Changes [.live, .latched, .history, .link, .queue] s (rise c detail s) := by
  unfold rise
  try dsimp only
  repeat' first
    | with_reducible exact Changes.refl _ _
    | (simp only [changesTo_eq]
       refine ChangesTo.record rfl ?_ ?_
       rotate_left 1
       (refine ⟨fun p hp => ?_⟩; cases p <;> first | exact absurd (by decide) hp | rfl))
    | with_reducible refine Changes.step ?_ (offer_changes _ _) (by decide)
    | split

theorem fall_changes (c : Cond) (s : State) :
    Changes [.live] s (fall c s) := by
  unfold fall
  try dsimp only
  repeat' first
    | with_reducible exact Changes.refl _ _
    | (simp only [changesTo_eq]
       refine ChangesTo.record rfl ?_ ?_
       rotate_left 1
       (refine ⟨fun p hp => ?_⟩; cases p <;> first | exact absurd (by decide) hp | rfl))
    | split

end Sys2Proof.Machine
end

