-- ==== Sys2Proof/Laws/FramesPosture.lean ====
section
/-! SUPPORT. What each operation may change, as one lemma per operation: the operations of PE and SPU. -/

set_option linter.unusedTactic false
set_option linter.unreachableTactic false

namespace Sys2Proof.Machine

theorem mature_changes (t : Trigger) (s : State) :
    Changes [.spuState, .triggers, .link, .queue] s (mature t s) := by
  unfold mature; dsimp only; repeat' split
  all_goals try refine Changes.trans ?_ ((offer_changes _ _).mono (by decide))
  all_goals
    refine ⟨fun p hp => ?_⟩
    cases t <;> cases p <;> first | exact absurd (by decide) hp | rfl

theorem triggerBegins_changes (t : Trigger) (s : State) :
    Changes [.spuState, .triggers, .link, .queue] s (triggerBegins t s) := by
  unfold triggerBegins; dsimp only; split
  · refine Changes.trans ?_ ((mature_changes _ _).mono (by decide))
    refine ⟨fun p hp => ?_⟩; cases t <;> cases p <;> first | exact absurd (by decide) hp | rfl
  · refine ⟨fun p hp => ?_⟩; cases t <;> cases p <;> first | exact absurd (by decide) hp | rfl

theorem triggerEnds_changes (t : Trigger) (s : State) :
    Changes [.spuState, .triggers, .link, .queue] s (triggerEnds t s) := by
  unfold triggerEnds; dsimp only; repeat' split
  all_goals try refine Changes.trans ?_ ((offer_changes _ _).mono (by decide))
  all_goals
    refine ⟨fun p hp => ?_⟩
    cases t <;> cases p <;> first | exact absurd (by decide) hp | rfl

theorem evalTrigger_changes (t : Trigger) (s : State) :
    Changes [.spuState, .triggers, .link, .queue] s (evalTrigger t s) := by
  unfold evalTrigger
  try dsimp only
  repeat' first
    | with_reducible exact Changes.refl _ _
    | (simp only [changesTo_eq]
       refine ChangesTo.record rfl ?_ ?_
       rotate_left 1
       (refine ⟨fun p hp => ?_⟩; cases p <;> first | exact absurd (by decide) hp | rfl))
    | with_reducible refine Changes.step ?_ (triggerEnds_changes _ _) (by decide)
    | with_reducible refine Changes.step ?_ (triggerBegins_changes _ _) (by decide)
    | split

theorem spuView_changes (s : State) :
    Changes [.spuState, .view, .triggers, .link, .queue, .choices] s (spuView s) := by
  unfold spuView
  try dsimp only
  repeat' first
    | with_reducible exact Changes.refl _ _
    | (refine fun (s : State) => ?_; try dsimp only)
    | (simp only [changesTo_eq]
       refine ChangesTo.record rfl ?_ ?_
       rotate_left 1
       (refine ⟨fun p hp => ?_⟩; cases p <;> first | exact absurd (by decide) hp | rfl))
    | with_reducible refine Changes.step ?_ (evalTrigger_changes _ _) (by decide)
    | with_reducible refine Changes.trans ?_ (eitherOrder_changes (by decide) ?_ ?_ _)
    | split
    | (refine ⟨fun p hp => ?_⟩; cases p <;> first | exact absurd (by decide) hp | rfl)

theorem emitPosture_changes (old p : Pe) (s : State) :
    Changes [.link, .queue] s (emitPosture old p s) := by
  unfold emitPosture
  try dsimp only
  repeat' first
    | with_reducible exact Changes.refl _ _
    | (simp only [changesTo_eq]
       refine ChangesTo.record rfl ?_ ?_
       rotate_left 1
       (refine ⟨fun p hp => ?_⟩; cases p <;> first | exact absurd (by decide) hp | rfl))
    | with_reducible refine Changes.step ?_ (offer_changes _ _) (by decide)
    | split

/-- `settled` computes the reported orientation and the closed freeze value, and nothing else (R52). -/
theorem settled_changes (old p : Pe) (s : State) : Changes [.reported] { s with pe := p } { s with pe := settled old p } := by
  unfold settled; dsimp only; split
  all_goals refine ⟨fun q hq => ?_⟩; cases q <;> first | exact absurd (by decide) hq | rfl

/-- A PE step changes what its new record differs in, what PE computes from it, and what its report changes. -/
theorem peStep_changes {m : List Part} {report : State → State} {p : Pe} {s : State}
    (hm : [.reported, .link, .queue, .choices] ⊆ m) (hr : ∀ s, Changes m s (report s))
    (hp : Changes m s { s with pe := p }) : Changes m s (peStep report p s) := by
  have h : Changes m s { s with pe := settled s.pe p } :=
    hp.step (settled_changes s.pe p s) fun x hx => hm (by simp at hx; simp [hx])
  unfold peStep; dsimp only; split
  · refine h.trans (raceLc_changes (fun x hx => hm (by simp at hx; simp [hx])) (fun t => ?_) hr _)
    exact (emitPosture_changes _ _ t).mono fun x hx => hm (by simp at hx; rcases hx with rfl | rfl <;> simp)
  · exact h.trans (hr _)

theorem peDiscontinuity_changes (s : State) :
    Changes [.locks, .freshness, .reported, .spuState, .view, .triggers, .link, .queue, .choices] s
      (peDiscontinuity s) := by
  unfold peDiscontinuity
  try dsimp only
  repeat' first
    | with_reducible exact Changes.refl _ _
    | (refine fun (s : State) => ?_; try dsimp only)
    | (simp only [changesTo_eq]
       refine ChangesTo.record rfl ?_ ?_
       rotate_left 1
       (refine ⟨fun p hp => ?_⟩; cases p <;> first | exact absurd (by decide) hp | rfl))
    | with_reducible refine Changes.trans ?_ (peStep_changes (by decide) ?_ ?_)
    | with_reducible refine Changes.step ?_ (spuView_changes _) (by decide)
    | split
    | (refine ⟨fun p hp => ?_⟩; cases p <;> first | exact absurd (by decide) hp | rfl)

theorem breakBase_changes (s : State) :
    Changes [.baseSamples, .locks, .freshness, .reported, .spuState, .view, .triggers, .link, .queue, .choices]
      s (breakBase s) := by
  unfold breakBase
  try dsimp only
  repeat' first
    | with_reducible exact Changes.refl _ _
    | (simp only [changesTo_eq]
       refine ChangesTo.record rfl ?_ ?_
       rotate_left 1
       (refine ⟨fun p hp => ?_⟩; cases p <;> first | exact absurd (by decide) hp | rfl))
    | with_reducible refine Changes.step ?_ (peDiscontinuity_changes _) (by decide)
    | split

theorem breakBoth_changes (s : State) :
    Changes [.display, .baseSamples, .locks, .freshness, .reported, .spuState, .view, .triggers, .link, .queue,
      .choices] s (breakBoth s) := by
  unfold breakBoth
  try dsimp only
  repeat' first
    | with_reducible exact Changes.refl _ _
    | (simp only [changesTo_eq]
       refine ChangesTo.record rfl ?_ ?_
       rotate_left 1
       (refine ⟨fun p hp => ?_⟩; cases p <;> first | exact absurd (by decide) hp | rfl))
    | with_reducible refine Changes.step ?_ (peDiscontinuity_changes _) (by decide)
    | split

theorem breakRecovery_changes (s : State) :
    Changes [.display, .locks, .halt, .freshness, .reported, .spuState, .view, .triggers, .link, .queue,
      .choices] s (breakRecovery s) := by
  unfold breakRecovery
  try dsimp only
  repeat' first
    | with_reducible exact Changes.refl _ _
    | (refine fun (s : State) => ?_; try dsimp only)
    | (simp only [changesTo_eq]
       refine ChangesTo.record rfl ?_ ?_
       rotate_left 1
       (refine ⟨fun p hp => ?_⟩; cases p <;> first | exact absurd (by decide) hp | rfl))
    | with_reducible refine Changes.trans ?_ (peStep_changes (by decide) ?_ ?_)
    | with_reducible refine Changes.step ?_ (spuView_changes _) (by decide)
    | split
    | (refine ⟨fun p hp => ?_⟩; cases p <;> first | exact absurd (by decide) hp | rfl)

theorem sfeView_changes (s : State) :
    Changes [.late, .baseView, .live] s (sfeView s) := by
  unfold sfeView
  try dsimp only
  repeat' first
    | with_reducible exact Changes.refl _ _
    | (simp only [changesTo_eq]
       refine ChangesTo.record rfl ?_ ?_
       rotate_left 1
       (refine ⟨fun p hp => ?_⟩; cases p <;> first | exact absurd (by decide) hp | rfl))
    | with_reducible refine Changes.step ?_ (fall_changes _ _) (by decide)
    | split

theorem resumeStream_changes (s : State) :
    Changes [.baseSamples, .late, .baseView, .locks, .freshness, .reported, .stream, .spuState, .view,
      .triggers, .live, .link, .queue, .btx, .choices] s (resumeStream s) := by
  unfold resumeStream
  try dsimp only
  repeat' first
    | with_reducible exact Changes.refl _ _
    | (simp only [changesTo_eq]
       refine ChangesTo.record rfl ?_ ?_
       rotate_left 1
       (refine ⟨fun p hp => ?_⟩; cases p <;> first | exact absurd (by decide) hp | rfl))
    | with_reducible refine Changes.step ?_ (sfeView_changes _) (by decide)
    | with_reducible refine Changes.step ?_ (breakBase_changes _) (by decide)
    | with_reducible refine Changes.step ?_ (sendBase_changes _ _) (by decide)
    | split

theorem quiesceStream_changes (s : State) :
    Changes [.late, .baseView, .stream, .live, .btx] s (quiesceStream s) := by
  unfold quiesceStream
  try dsimp only
  repeat' first
    | with_reducible exact Changes.refl _ _
    | (simp only [changesTo_eq]
       refine ChangesTo.record rfl ?_ ?_
       rotate_left 1
       (refine ⟨fun p hp => ?_⟩; cases p <;> first | exact absurd (by decide) hp | rfl))
    | with_reducible refine Changes.step ?_ (sfeView_changes _) (by decide)
    | with_reducible refine Changes.step ?_ (sendBase_changes _ _) (by decide)
    | split

theorem compareStream_changes (s : State) :
    Changes [.baseSamples, .late, .baseView, .locks, .freshness, .reported, .stream, .spuState, .view,
      .triggers, .live, .link, .queue, .btx, .choices] s (compareStream s) := by
  unfold compareStream
  try dsimp only
  repeat' first
    | with_reducible exact Changes.refl _ _
    | (simp only [changesTo_eq]
       refine ChangesTo.record rfl ?_ ?_
       rotate_left 1
       (refine ⟨fun p hp => ?_⟩; cases p <;> first | exact absurd (by decide) hp | rfl))
    | with_reducible refine Changes.step ?_ (quiesceStream_changes _) (by decide)
    | with_reducible refine Changes.step ?_ (resumeStream_changes _) (by decide)
    | split

theorem restartPeriod_changes (s : State) :
    Changes [.reader] s (restartPeriod s) := by
  unfold restartPeriod
  try dsimp only
  repeat' first
    | with_reducible exact Changes.refl _ _
    | (simp only [changesTo_eq]
       refine ChangesTo.record rfl ?_ ?_
       rotate_left 1
       (refine ⟨fun p hp => ?_⟩; cases p <;> first | exact absurd (by decide) hp | rfl))
    | split

theorem sfeMode_changes (old : PartMode) (s : State) :
    Changes [.reader, .display, .baseSamples, .locks, .freshness, .reported, .spuState, .view, .triggers, .link,
      .queue, .choices] s (sfeMode old s) := by
  unfold sfeMode
  try dsimp only
  repeat' first
    | with_reducible exact Changes.refl _ _
    | (simp only [changesTo_eq]
       refine ChangesTo.record rfl ?_ ?_
       rotate_left 1
       (refine ⟨fun p hp => ?_⟩; cases p <;> first | exact absurd (by decide) hp | rfl))
    | with_reducible refine Changes.step ?_ (restartPeriod_changes _) (by decide)
    | with_reducible refine Changes.step ?_ (breakBoth_changes _) (by decide)
    | split

theorem smMode_changes (s : State) :
    Changes [.scanPeriod] s (smMode s) := by
  unfold smMode
  try dsimp only
  repeat' first
    | with_reducible exact Changes.refl _ _
    | (simp only [changesTo_eq]
       refine ChangesTo.record rfl ?_ ?_
       rotate_left 1
       (refine ⟨fun p hp => ?_⟩; cases p <;> first | exact absurd (by decide) hp | rfl))
    | split

theorem bmMode_changes (old : PartMode) (s : State) :
    Changes [.baseSamples, .late, .baseView, .locks, .freshness, .reported, .stream, .spuState, .view,
      .triggers, .live, .link, .queue, .btx, .choices] s (bmMode old s) := by
  unfold bmMode
  try dsimp only
  repeat' first
    | with_reducible exact Changes.refl _ _
    | (simp only [changesTo_eq]
       refine ChangesTo.record rfl ?_ ?_
       rotate_left 1
       (refine ⟨fun p hp => ?_⟩; cases p <;> first | exact absurd (by decide) hp | rfl))
    | with_reducible refine Changes.step ?_ (compareStream_changes _) (by decide)
    | with_reducible refine Changes.step ?_ (sendBase_changes _ _) (by decide)
    | split

theorem peMode_changes (s : State) :
    Changes [.freshness, .reported, .spuState, .view, .triggers, .link, .queue, .choices] s (peMode s) := by
  unfold peMode
  try dsimp only
  repeat' first
    | with_reducible exact Changes.refl _ _
    | (refine fun (s : State) => ?_; try dsimp only)
    | (simp only [changesTo_eq]
       refine ChangesTo.record rfl ?_ ?_
       rotate_left 1
       (refine ⟨fun p hp => ?_⟩; cases p <;> first | exact absurd (by decide) hp | rfl))
    | with_reducible refine Changes.trans ?_ (peStep_changes (by decide) ?_ ?_)
    | with_reducible refine Changes.step ?_ (spuView_changes _) (by decide)
    | split
    | (refine ⟨fun p hp => ?_⟩; cases p <;> first | exact absurd (by decide) hp | rfl)

theorem changeMode_changes (m : PartMode) (s : State) :
    Changes [.reader, .display, .baseSamples, .late, .baseView, .locks, .freshness, .reported, .stream,
      .scanPeriod, .spuState, .view, .triggers, .mode, .live, .link, .queue, .btx, .choices] s (changeMode m s)
      := by
  unfold changeMode
  try dsimp only
  repeat' first
    | with_reducible exact Changes.refl _ _
    | (simp only [changesTo_eq]
       refine ChangesTo.record rfl ?_ ?_
       rotate_left 1
       (refine ⟨fun p hp => ?_⟩; cases p <;> first | exact absurd (by decide) hp | rfl))
    | with_reducible refine Changes.step ?_ (peMode_changes _) (by decide)
    | with_reducible refine Changes.step ?_ (bmMode_changes _ _) (by decide)
    | with_reducible refine Changes.step ?_ (smMode_changes _) (by decide)
    | with_reducible refine Changes.step ?_ (sfeMode_changes _ _) (by decide)
    | split

theorem chooseMode_changes (s : State) :
    Changes [.reader, .display, .baseSamples, .late, .baseView, .locks, .freshness, .reported, .stream,
      .scanPeriod, .spuState, .view, .triggers, .mode, .live, .link, .queue, .btx, .choices] s (chooseMode s) :=
      by
  unfold chooseMode
  try dsimp only
  repeat' first
    | with_reducible exact Changes.refl _ _
    | (simp only [changesTo_eq]
       refine ChangesTo.record rfl ?_ ?_
       rotate_left 1
       (refine ⟨fun p hp => ?_⟩; cases p <;> first | exact absurd (by decide) hp | rfl))
    | with_reducible refine Changes.step ?_ (changeMode_changes _ _) (by decide)
    | split

theorem startEpisode_changes (causes : BitVec 6) (s : State) :
    Changes [.reader, .display, .baseSamples, .late, .baseView, .locks, .freshness, .reported, .stream,
      .scanPeriod, .spuState, .view, .triggers, .causes, .episode, .mode, .live, .link, .queue, .btx, .choices]
      s (startEpisode causes s) := by
  unfold startEpisode
  try dsimp only
  repeat' first
    | with_reducible exact Changes.refl _ _
    | (simp only [changesTo_eq]
       refine ChangesTo.record rfl ?_ ?_
       rotate_left 1
       (refine ⟨fun p hp => ?_⟩; cases p <;> first | exact absurd (by decide) hp | rfl))
    | with_reducible refine Changes.step ?_ (chooseMode_changes _) (by decide)
    | split

theorem takeCause_changes (c : WakeCause) (s : State) :
    Changes [.reader, .display, .baseSamples, .late, .baseView, .locks, .freshness, .reported, .stream,
      .scanPeriod, .spuState, .view, .triggers, .causes, .episode, .mode, .live, .link, .queue, .btx, .choices]
      s (takeCause c s) := by
  unfold takeCause
  try dsimp only
  repeat' first
    | with_reducible exact Changes.refl _ _
    | (simp only [changesTo_eq]
       refine ChangesTo.record rfl ?_ ?_
       rotate_left 1
       (refine ⟨fun p hp => ?_⟩; cases p <;> first | exact absurd (by decide) hp | rfl))
    | with_reducible refine Changes.step ?_ (startEpisode_changes _ _) (by decide)
    | split

theorem cause_changes (c : WakeCause) (s : State) :
    Changes [.reader, .display, .baseSamples, .late, .baseView, .locks, .freshness, .reported, .stream,
      .scanPeriod, .spuState, .view, .triggers, .causes, .episode, .mode, .live, .link, .queue, .btx, .choices]
      s (cause c s) := by
  unfold cause
  try dsimp only
  repeat' first
    | with_reducible exact Changes.refl _ _
    | (simp only [changesTo_eq]
       refine ChangesTo.record rfl ?_ ?_
       rotate_left 1
       (refine ⟨fun p hp => ?_⟩; cases p <;> first | exact absurd (by decide) hp | rfl))
    | with_reducible refine Changes.step ?_ (takeCause_changes _ _) (by decide)
    | split

theorem spuPosture_changes (changed : Bool) (s : State) :
    Changes [.reader, .display, .baseSamples, .late, .baseView, .locks, .freshness, .reported, .stream,
      .scanPeriod, .spuState, .view, .triggers, .causes, .episode, .mode, .live, .link, .queue, .btx, .choices]
      s (spuPosture changed s) := by
  unfold spuPosture
  try dsimp only
  repeat' first
    | with_reducible exact Changes.refl _ _
    | (simp only [changesTo_eq]
       refine ChangesTo.record rfl ?_ ?_
       rotate_left 1
       (refine ⟨fun p hp => ?_⟩; cases p <;> first | exact absurd (by decide) hp | rfl))
    | with_reducible refine Changes.step ?_ (cause_changes _ _) (by decide)
    | with_reducible refine Changes.step ?_ (spuView_changes _) (by decide)
    | split

theorem spuLid_changes (level : Level) (s : State) :
    Changes [.reader, .display, .baseSamples, .late, .baseView, .locks, .freshness, .reported, .stream,
      .scanPeriod, .spuState, .view, .triggers, .causes, .lidConfirm, .episode, .mode, .live, .link, .queue,
      .btx, .choices] s (spuLid level s) := by
  unfold spuLid
  try dsimp only
  repeat' first
    | with_reducible exact Changes.refl _ _
    | (simp only [changesTo_eq]
       refine ChangesTo.record rfl ?_ ?_
       rotate_left 1
       (refine ⟨fun p hp => ?_⟩; cases p <;> first | exact absurd (by decide) hp | rfl))
    | with_reducible refine Changes.step ?_ (cause_changes _ _) (by decide)
    | split

theorem lidConfirmed_changes (s : State) :
    Changes [.reader, .display, .baseSamples, .late, .baseView, .locks, .freshness, .reported, .stream,
      .scanPeriod, .spuState, .view, .triggers, .causes, .lidConfirm, .episode, .mode, .live, .link, .queue,
      .btx, .choices] s (lidConfirmed s) := by
  unfold lidConfirmed
  try dsimp only
  repeat' first
    | with_reducible exact Changes.refl _ _
    | (simp only [changesTo_eq]
       refine ChangesTo.record rfl ?_ ?_
       rotate_left 1
       (refine ⟨fun p hp => ?_⟩; cases p <;> first | exact absurd (by decide) hp | rfl))
    | with_reducible refine Changes.step ?_ (cause_changes _ _) (by decide)
    | split

theorem wakeExpired_changes (s : State) :
    Changes [.reader, .display, .baseSamples, .late, .baseView, .locks, .freshness, .reported, .stream,
      .scanPeriod, .spuState, .view, .triggers, .causes, .episode, .mode, .live, .latched, .history, .link,
      .queue, .btx, .choices] s (wakeExpired s) := by
  unfold wakeExpired
  try dsimp only
  repeat' first
    | with_reducible exact Changes.refl _ _
    | (simp only [changesTo_eq]
       refine ChangesTo.record rfl ?_ ?_
       rotate_left 1
       (refine ⟨fun p hp => ?_⟩; cases p <;> first | exact absurd (by decide) hp | rfl))
    | with_reducible refine Changes.step ?_ (chooseMode_changes _) (by decide)
    | with_reducible refine Changes.step ?_ (rise_changes _ _ _) (by decide)
    | split

theorem nextAttempt_changes (s : State) :
    Changes [.episode] s (nextAttempt s) := by
  unfold nextAttempt
  try dsimp only
  repeat' first
    | with_reducible exact Changes.refl _ _
    | (simp only [changesTo_eq]
       refine ChangesTo.record rfl ?_ ?_
       rotate_left 1
       (refine ⟨fun p hp => ?_⟩; cases p <;> first | exact absurd (by decide) hp | rfl))
    | split

/-- A change of PE's record that SPU learns of as a possible wake cause. -/
theorem peChange_changes {m : List Part} {p : Pe} {s : State}
    (hm : [.reader, .display, .baseSamples, .late, .baseView, .locks, .freshness, .reported, .stream, .scanPeriod, .spuState, .view, .triggers, .causes, .episode, .mode, .live, .link, .queue, .btx, .choices] ⊆ m) (hp : Changes m s { s with pe := p }) :
    Changes m s (peChange p s) :=
  peStep_changes (fun x hx => hm (by simp at hx; rcases hx with rfl | rfl | rfl | rfl <;> simp))
    (fun _ => (spuPosture_changes _ _).mono hm) hp

theorem Pe.force_changes (n : Situation) (p : Pe) (s : State) :
    Changes [.forcing, .locks, .abstain] { s with pe := p } { s with pe := p.force n } := by
  unfold Pe.force; split
  · exact Changes.refl _ _
  · split
    all_goals refine ⟨fun q hq => ?_⟩; cases q <;> first | exact absurd (by decide) hq | rfl

theorem Pe.freshen_same (limit : Nat) (y : Bool) (p : Pe) (s : State) :
    Changes [.freshness] { s with pe := p } { s with pe := p.freshen limit y } := by
  unfold Pe.freshen; split
  all_goals refine ⟨fun q hq => ?_⟩; cases q <;> first | exact absurd (by decide) hq | rfl

theorem Pe.postureSide_changes (t : Tuning) (n : Notice) (p : Pe) (s : State) :
    Changes [.locks, .freshness, .abstain, .hinge] { s with pe := p } { s with pe := p.postureSide t n } := by
  unfold Pe.postureSide; dsimp only; split
  all_goals
    first | unfold Pe.classified | unfold Pe.unclassified
    refine Changes.trans ?_ ((Pe.freshen_same _ _ _ s).mono (by decide))
    refine ⟨fun q hq => ?_⟩; cases q <;> first | exact absurd (by decide) hq | rfl

theorem Pe.halted_changes (p : Pe) (s : State) : Changes [.halt, .locks] { s with pe := p } { s with pe := p.halted } := by
  refine ⟨fun q hq => ?_⟩; cases q <;> first | exact absurd (by decide) hq | rfl

theorem peForcing_changes (s : State) :
    Changes [.reader, .display, .baseSamples, .late, .baseView, .locks, .forcing, .freshness, .abstain,
      .reported, .stream, .scanPeriod, .spuState, .view, .triggers, .causes, .episode, .mode, .live, .link,
      .queue, .btx, .choices] s (peForcing s) := by
  unfold peForcing; split
  · exact Changes.refl _ _
  · exact peChange_changes (by decide) ((Pe.force_changes _ s.pe s).mono (by decide))

theorem sampleNotice_changes (n : Notice) (s : State) :
    Changes [.reader, .display, .baseSamples, .late, .baseView, .locks, .freshness, .abstain, .reported, .hinge,
      .stream, .scanPeriod, .spuState, .view, .triggers, .causes, .episode, .mode, .live, .link, .queue, .btx,
      .choices] s (sampleNotice n s) := by
  refine peChange_changes (by decide) (((Pe.postureSide_changes s.settings.tuning n s.pe s).mono (by decide)).trans ?_)
  refine ⟨fun q hq => ?_⟩; cases q <;> first | exact absurd (by decide) hq | rfl

theorem peHalt_changes (s : State) :
    Changes [.reader, .display, .baseSamples, .late, .baseView, .locks, .halt, .freshness, .reported, .stream,
      .scanPeriod, .spuState, .view, .triggers, .causes, .episode, .mode, .live, .link, .queue, .btx, .choices]
      s (peHalt s) := by
  exact peChange_changes (by decide) ((Pe.halted_changes s.pe s).mono (by decide))

theorem peBase_changes (serial : Serial) (offset : Int) (s : State) :
    Changes [.hingeBase] s (peBase serial offset s) := by
  unfold peBase
  try dsimp only
  repeat' first
    | with_reducible exact Changes.refl _ _
    | (simp only [changesTo_eq]
       refine ChangesTo.record rfl ?_ ?_
       rotate_left 1
       (refine ⟨fun p hp => ?_⟩; cases p <;> first | exact absurd (by decide) hp | rfl))
    | split

theorem peOffset_changes (offset : Int) (s : State) :
    Changes [.hingeBase] s (peOffset offset s) := by
  unfold peOffset
  try dsimp only
  repeat' first
    | with_reducible exact Changes.refl _ _
    | (simp only [changesTo_eq]
       refine ChangesTo.record rfl ?_ ?_
       rotate_left 1
       (refine ⟨fun p hp => ?_⟩; cases p <;> first | exact absurd (by decide) hp | rfl))
    | split

theorem peBm_changes (s : State) :
    Changes [.reader, .display, .baseSamples, .late, .baseView, .locks, .forcing, .freshness, .abstain,
      .reported, .hingeBase, .stream, .scanPeriod, .spuState, .view, .triggers, .causes, .episode, .mode, .live,
      .link, .queue, .btx, .choices] s (peBm s) := by
  unfold peBm
  try dsimp only
  repeat' first
    | with_reducible exact Changes.refl _ _
    | (simp only [changesTo_eq]
       refine ChangesTo.record rfl ?_ ?_
       rotate_left 1
       (refine ⟨fun p hp => ?_⟩; cases p <;> first | exact absurd (by decide) hp | rfl))
    | with_reducible refine Changes.step ?_ (peForcing_changes _) (by decide)
    | split

theorem replaceTuning_changes (t : Tuning) (s : State) :
    Changes [.tuning, .display, .baseSamples, .divider, .locks, .freshness, .reported, .spuState, .view,
      .triggers, .link, .queue, .choices] s (replaceTuning t s) := by
  unfold replaceTuning
  try dsimp only
  repeat' first
    | with_reducible exact Changes.refl _ _
    | (refine fun (s : State) => ?_; try dsimp only)
    | (simp only [changesTo_eq]
       refine ChangesTo.record rfl ?_ ?_
       rotate_left 1
       (refine ⟨fun p hp => ?_⟩; cases p <;> first | exact absurd (by decide) hp | rfl))
    | with_reducible refine Changes.step ?_ (breakBoth_changes _) (by decide)
    | with_reducible refine Changes.trans ?_ (peStep_changes (by decide) ?_ ?_)
    | with_reducible refine Changes.step ?_ (spuView_changes _) (by decide)
    | split
    | (refine ⟨fun p hp => ?_⟩; cases p <;> first | exact absurd (by decide) hp | rfl)

theorem serveGetPosture_changes (place : Nat) (s : State) :
    Changes [.link, .queue] s (serveGetPosture place s) := by
  unfold serveGetPosture
  try dsimp only
  repeat' first
    | with_reducible exact Changes.refl _ _
    | (simp only [changesTo_eq]
       refine ChangesTo.record rfl ?_ ?_
       rotate_left 1
       (refine ⟨fun p hp => ?_⟩; cases p <;> first | exact absurd (by decide) hp | rfl))
    | with_reducible refine Changes.step ?_ (answer_changes _ _ _) (by decide)
    | split

theorem Pe.lockRotation_changes (on : Bool) (p : Pe) (s : State) :
    Changes [.rotation] { s with pe := p } { s with pe := p.lockRotation on } := by
  unfold Pe.lockRotation; repeat' split
  all_goals refine ⟨fun q hq => ?_⟩; cases q <;> first | exact absurd (by decide) hq | rfl

theorem serveSetRotationLock_changes (place : Nat) (payload : List Byte) (s : State) :
    Changes [.reported, .rotation, .spuState, .view, .triggers, .link, .queue, .choices] s (serveSetRotationLock
      place payload s) := by
  unfold serveSetRotationLock; split
  · exact (answer_changes _ _ _).mono (by decide)
  · dsimp only
    refine Changes.step ?_ (answer_changes _ _ _) (by decide)
    exact peStep_changes (by decide) (fun _ => (spuView_changes _).mono (by decide))
      ((Pe.lockRotation_changes _ s.pe s).mono (by decide))

theorem serveSetTuning_changes (place : Nat) (payload : List Byte) (s : State) :
    Changes [.tuning, .display, .baseSamples, .divider, .locks, .freshness, .reported, .spuState, .view,
      .triggers, .link, .queue, .choices] s (serveSetTuning place payload s) := by
  unfold serveSetTuning
  try dsimp only
  repeat' first
    | with_reducible exact Changes.refl _ _
    | (refine fun (s : State) => ?_; try dsimp only)
    | (simp only [changesTo_eq]
       refine ChangesTo.record rfl ?_ ?_
       rotate_left 1
       (refine ⟨fun p hp => ?_⟩; cases p <;> first | exact absurd (by decide) hp | rfl))
    | with_reducible refine Changes.step ?_ (replaceTuning_changes _ _) (by decide)
    | with_reducible refine Changes.step ?_ (answer_changes _ _ _) (by decide)
    | with_reducible refine Changes.trans ?_ (raceLc_changes (by decide) ?_ ?_ _)
    | split
    | (refine ⟨fun p hp => ?_⟩; cases p <;> first | exact absurd (by decide) hp | rfl)

end Sys2Proof.Machine
end

