-- ==== Sys2Proof/Laws/FramesPen.lean ====
section
/-! SUPPORT. What each operation may change, as one lemma per operation: the operations of RBA, PDC and SS. -/

set_option linter.unusedTactic false
set_option linter.unreachableTactic false

namespace Sys2Proof.Machine

theorem filePen_changes (requested : Nat) (s : State) :
    Changes [.penClaim, .grants, .charging] s (filePen requested s) := by
  unfold filePen
  try dsimp only
  repeat' first
    | with_reducible exact Changes.refl _ _
    | (simp only [changesTo_eq]
       refine ChangesTo.record rfl ?_ ?_
       rotate_left 1
       (refine ⟨fun p hp => ?_⟩; cases p <;> first | exact absurd (by decide) hp | rfl))
    | split

theorem withdrawPen_changes (s : State) :
    Changes [.penClaim, .grants, .charging] s (withdrawPen s) := by
  unfold withdrawPen
  try dsimp only
  repeat' first
    | with_reducible exact Changes.refl _ _
    | (simp only [changesTo_eq]
       refine ChangesTo.record rfl ?_ ?_
       rotate_left 1
       (refine ⟨fun p hp => ?_⟩; cases p <;> first | exact absurd (by decide) hp | rfl))
    | split

theorem spuPen_changes (c : Option WakeCause) (s : State) :
    Changes [.reader, .display, .baseSamples, .late, .baseView, .locks, .freshness, .reported, .stream,
      .scanPeriod, .spuState, .view, .triggers, .causes, .episode, .mode, .live, .link, .queue, .btx, .choices]
      s (spuPen c s) := by
  unfold spuPen
  try dsimp only
  repeat' first
    | with_reducible exact Changes.refl _ _
    | (refine fun (s : State) => ?_; try dsimp only)
    | (simp only [changesTo_eq]
       refine ChangesTo.record rfl ?_ ?_
       rotate_left 1
       (refine ⟨fun p hp => ?_⟩; cases p <;> first | exact absurd (by decide) hp | rfl))
    | with_reducible refine Changes.step ?_ (cause_changes _ _) (by decide)
    | with_reducible refine Changes.step ?_ (chooseMode_changes _) (by decide)
    | with_reducible refine Changes.trans ?_ (eitherOrder_changes (by decide) ?_ ?_ _)
    | split
    | (refine ⟨fun p hp => ?_⟩; cases p <;> first | exact absurd (by decide) hp | rfl)

/-- A step of PDC changes what its acts change, and what PEN_STATE and the reports to SPU change. -/
theorem pdcStep_changes {m : List Part} {c : Option WakeCause} {f : State → State}
    (hm : [.reader, .display, .baseSamples, .late, .baseView, .locks, .freshness, .reported, .stream, .scanPeriod, .spuState, .view, .triggers, .causes, .episode, .mode, .live, .link, .queue, .btx, .choices] ⊆ m) (hf : ∀ s, Changes m s (f s)) (s : State) :
    Changes m s (pdcStep c f s) := by
  have he : ∀ (b : Bool) (e : Event) (t : State), Changes m t ((if b = true then offer e else id) t) := by
    intro b e t; cases b
    · exact Changes.refl _ _
    · exact (offer_changes e t).mono fun x hx => hm (by simp at hx; rcases hx with rfl | rfl <;> simp)
  unfold pdcStep; dsimp only; split
  · exact (hf s).trans (he _ _ _)
  · exact (hf s).trans (raceLc_changes (fun x hx => hm (by simp at hx; simp [hx])) (fun t => he _ _ t)
      (fun t => (spuPen_changes _ t).mono hm) _)

theorem enterPdc_changes (new : PdcState) (s : State) :
    Changes [.polls, .charging] s (enterPdc new s) := by
  unfold enterPdc
  try dsimp only
  repeat' first
    | with_reducible exact Changes.refl _ _
    | (simp only [changesTo_eq]
       refine ChangesTo.record rfl ?_ ?_
       rotate_left 1
       (refine ⟨fun p hp => ?_⟩; cases p <;> first | exact absurd (by decide) hp | rfl))
    | split

theorem endPoll_changes (s : State) :
    Changes [.polls] s (endPoll s) := by
  unfold endPoll
  try dsimp only
  repeat' first
    | with_reducible exact Changes.refl _ _
    | (simp only [changesTo_eq]
       refine ChangesTo.record rfl ?_ ?_
       rotate_left 1
       (refine ⟨fun p hp => ?_⟩; cases p <;> first | exact absurd (by decide) hp | rfl))
    | split

theorem startPoll_changes (s : State) :
    Changes [.polls, .queries] s (startPoll s) := by
  unfold startPoll
  try dsimp only
  repeat' first
    | with_reducible exact Changes.refl _ _
    | (simp only [changesTo_eq]
       refine ChangesTo.record rfl ?_ ?_
       rotate_left 1
       (refine ⟨fun p hp => ?_⟩; cases p <;> first | exact absurd (by decide) hp | rfl))
    | with_reducible refine Changes.step ?_ (sendQuery_changes _) (by decide)
    | split

theorem stopCharging_changes (s : State) :
    Changes [.penClaim, .grants, .charging] s (stopCharging s) := by
  unfold stopCharging
  try dsimp only
  repeat' first
    | with_reducible exact Changes.refl _ _
    | (simp only [changesTo_eq]
       refine ChangesTo.record rfl ?_ ?_
       rotate_left 1
       (refine ⟨fun p hp => ?_⟩; cases p <;> first | exact absurd (by decide) hp | rfl))
    | with_reducible refine Changes.step ?_ (withdrawPen_changes _) (by decide)
    | split

theorem waitGrant_changes (ph : ChargePhase) (s : State) :
    Changes [.polls, .charging] s (waitGrant ph s) := by
  unfold waitGrant
  try dsimp only
  repeat' first
    | with_reducible exact Changes.refl _ _
    | (simp only [changesTo_eq]
       refine ChangesTo.record rfl ?_ ?_
       rotate_left 1
       (refine ⟨fun p hp => ?_⟩; cases p <;> first | exact absurd (by decide) hp | rfl))
    | with_reducible refine Changes.step ?_ (enterPdc_changes _ _) (by decide)
    | split

theorem runPhase_changes (ph : ChargePhase) (s : State) :
    Changes [.polls, .charging] s (runPhase ph s) := by
  unfold runPhase
  try dsimp only
  repeat' first
    | with_reducible exact Changes.refl _ _
    | (simp only [changesTo_eq]
       refine ChangesTo.record rfl ?_ ?_
       rotate_left 1
       (refine ⟨fun p hp => ?_⟩; cases p <;> first | exact absurd (by decide) hp | rfl))
    | with_reducible refine Changes.step ?_ (enterPdc_changes _ _) (by decide)
    | split

theorem enterPhase_changes (ph : ChargePhase) (s : State) :
    Changes [.penClaim, .grants, .polls, .charging] s (enterPhase ph s) := by
  have h1 := (filePen_changes (phaseAmount s.settings.pen ph) s).mono
    (show _ ⊆ [Part.penClaim, .grants, .polls, .charging] by decide)
  unfold enterPhase
  generalize filePen (phaseAmount s.settings.pen ph) s = x at h1 ⊢
  have h2 : Changes [.penClaim, .grants, .polls, .charging] s
      (if ph = .topoff then { x with pdc := { x.pdc with runStart := none } } else x) := by
    split
    · refine h1.trans (by refine ⟨fun p hp => ?_⟩; cases p <;> first | exact absurd (by decide) hp | rfl)
    · exact h1
  dsimp only
  generalize (if ph = .topoff then ({ x with pdc := { x.pdc with runStart := none } } : State) else x) = y at h2 ⊢
  split
  · exact h2.step (waitGrant_changes _ _) (by decide)
  · exact h2.step (runPhase_changes _ _) (by decide)

theorem openCycle_changes (s : State) :
    Changes [.charging] s (openCycle s) := by
  unfold openCycle
  try dsimp only
  repeat' first
    | with_reducible exact Changes.refl _ _
    | (simp only [changesTo_eq]
       refine ChangesTo.record rfl ?_ ?_
       rotate_left 1
       (refine ⟨fun p hp => ?_⟩; cases p <;> first | exact absurd (by decide) hp | rfl))
    | split

theorem reachFull_changes (s : State) :
    Changes [.penClaim, .grants, .polls, .charging] s (reachFull s) := by
  unfold reachFull
  try dsimp only
  repeat' first
    | with_reducible exact Changes.refl _ _
    | (simp only [changesTo_eq]
       refine ChangesTo.record rfl ?_ ?_
       rotate_left 1
       (refine ⟨fun p hp => ?_⟩; cases p <;> first | exact absurd (by decide) hp | rfl))
    | with_reducible refine Changes.step ?_ (stopCharging_changes _) (by decide)
    | with_reducible refine Changes.step ?_ (enterPdc_changes _ _) (by decide)
    | split

theorem suspendPen_changes (s : State) :
    Changes [.penClaim, .grants, .polls, .charging] s (suspendPen s) := by
  unfold suspendPen
  try dsimp only
  repeat' first
    | with_reducible exact Changes.refl _ _
    | (simp only [changesTo_eq]
       refine ChangesTo.record rfl ?_ ?_
       rotate_left 1
       (refine ⟨fun p hp => ?_⟩; cases p <;> first | exact absurd (by decide) hp | rfl))
    | with_reducible refine Changes.step ?_ (stopCharging_changes _) (by decide)
    | with_reducible refine Changes.step ?_ (enterPdc_changes _ _) (by decide)
    | split

theorem enterFault_changes (reason : PenFault) (s : State) :
    Changes [.penClaim, .grants, .polls, .charging, .live, .latched, .history, .link, .queue] s (enterFault
      reason s) := by
  unfold enterFault
  try dsimp only
  repeat' first
    | with_reducible exact Changes.refl _ _
    | (simp only [changesTo_eq]
       refine ChangesTo.record rfl ?_ ?_
       rotate_left 1
       (refine ⟨fun p hp => ?_⟩; cases p <;> first | exact absurd (by decide) hp | rfl))
    | with_reducible refine Changes.step ?_ (stopCharging_changes _) (by decide)
    | with_reducible refine Changes.step ?_ (rise_changes _ _ _) (by decide)
    | split

theorem phaseChoice_changes (s : State) :
    Changes [.penClaim, .grants, .polls, .charging, .live, .latched, .history, .link, .queue] s (phaseChoice s)
      := by
  unfold phaseChoice
  try dsimp only
  repeat' first
    | with_reducible exact Changes.refl _ _
    | (simp only [changesTo_eq]
       refine ChangesTo.record rfl ?_ ?_
       rotate_left 1
       (refine ⟨fun p hp => ?_⟩; cases p <;> first | exact absurd (by decide) hp | rfl))
    | with_reducible refine Changes.step ?_ (enterFault_changes _ _) (by decide)
    | with_reducible refine Changes.step ?_ (suspendPen_changes _) (by decide)
    | with_reducible refine Changes.step ?_ (reachFull_changes _) (by decide)
    | with_reducible refine Changes.step ?_ (openCycle_changes _) (by decide)
    | with_reducible refine Changes.step ?_ (enterPhase_changes _ _) (by decide)
    | split

theorem changeReasons_changes (new : BitVec 3) (s : State) :
    Changes [.penClaim, .grants, .polls, .charging, .live, .latched, .history, .link, .queue] s (changeReasons
      new s) := by
  unfold changeReasons
  try dsimp only
  repeat' first
    | with_reducible exact Changes.refl _ _
    | (simp only [changesTo_eq]
       refine ChangesTo.record rfl ?_ ?_
       rotate_left 1
       (refine ⟨fun p hp => ?_⟩; cases p <;> first | exact absurd (by decide) hp | rfl))
    | with_reducible refine Changes.step ?_ (phaseChoice_changes _) (by decide)
    | with_reducible refine Changes.step ?_ (suspendPen_changes _) (by decide)
    | split

theorem pdcSupply_changes (s : State) :
    Changes [.reader, .display, .baseSamples, .late, .baseView, .locks, .freshness, .reported, .stream,
      .scanPeriod, .penClaim, .grants, .polls, .charging, .spuState, .view, .triggers, .causes, .episode, .mode,
      .live, .latched, .history, .link, .queue, .btx, .choices] s (pdcSupply s) := by
  unfold pdcSupply
  try dsimp only
  repeat' first
    | with_reducible exact Changes.refl _ _
    | (refine fun (s : State) => ?_; try dsimp only)
    | (simp only [changesTo_eq]
       refine ChangesTo.record rfl ?_ ?_
       rotate_left 1
       (refine ⟨fun p hp => ?_⟩; cases p <;> first | exact absurd (by decide) hp | rfl))
    | with_reducible refine Changes.step ?_ (changeReasons_changes _ _) (by decide)
    | with_reducible refine Changes.trans ?_ (pdcStep_changes (by decide) ?_ _)
    | split
    | (refine ⟨fun p hp => ?_⟩; cases p <;> first | exact absurd (by decide) hp | rfl)

theorem takeNotice_changes (grant : Nat) (s : State) :
    Changes [.polls, .charging] s (takeNotice grant s) := by
  unfold takeNotice
  try dsimp only
  repeat' first
    | with_reducible exact Changes.refl _ _
    | (simp only [changesTo_eq]
       refine ChangesTo.record rfl ?_ ?_
       rotate_left 1
       (refine ⟨fun p hp => ?_⟩; cases p <;> first | exact absurd (by decide) hp | rfl))
    | with_reducible refine Changes.step ?_ (runPhase_changes _ _) (by decide)
    | with_reducible refine Changes.step ?_ (waitGrant_changes _ _) (by decide)
    | split

theorem noticePen_changes (s : State) :
    Changes [.reader, .display, .baseSamples, .late, .baseView, .locks, .freshness, .reported, .stream,
      .scanPeriod, .polls, .charging, .spuState, .view, .triggers, .causes, .episode, .mode, .live, .link,
      .queue, .btx, .choices] s (noticePen s) := by
  unfold noticePen
  try dsimp only
  repeat' first
    | with_reducible exact Changes.refl _ _
    | (refine fun (s : State) => ?_; try dsimp only)
    | (simp only [changesTo_eq]
       refine ChangesTo.record rfl ?_ ?_
       rotate_left 1
       (refine ⟨fun p hp => ?_⟩; cases p <;> first | exact absurd (by decide) hp | rfl))
    | with_reducible refine Changes.step ?_ (takeNotice_changes _ _) (by decide)
    | with_reducible refine Changes.trans ?_ (pdcStep_changes (by decide) ?_ _)
    | split
    | (refine ⟨fun p hp => ?_⟩; cases p <;> first | exact absurd (by decide) hp | rfl)

theorem fallFault_changes (f : Option PenFault) (s : State) :
    Changes [.live] s (fallFault f s) := by
  unfold fallFault
  try dsimp only
  repeat' first
    | with_reducible exact Changes.refl _ _
    | (simp only [changesTo_eq]
       refine ChangesTo.record rfl ?_ ?_
       rotate_left 1
       (refine ⟨fun p hp => ?_⟩; cases p <;> first | exact absurd (by decide) hp | rfl))
    | with_reducible refine Changes.step ?_ (fall_changes _ _) (by decide)
    | split

theorem removePen_changes (s : State) :
    Changes [.penClaim, .grants, .polls, .charging, .penLast, .live] s (removePen s) := by
  unfold removePen
  try dsimp only
  repeat' first
    | with_reducible exact Changes.refl _ _
    | (simp only [changesTo_eq]
       refine ChangesTo.record rfl ?_ ?_
       rotate_left 1
       (refine ⟨fun p hp => ?_⟩; cases p <;> first | exact absurd (by decide) hp | rfl))
    | with_reducible refine Changes.step ?_ (fallFault_changes _ _) (by decide)
    | with_reducible refine Changes.step ?_ (stopCharging_changes _) (by decide)
    | split

theorem enterIdentifying_changes (s : State) :
    Changes [.polls, .charging] s (enterIdentifying s) := by
  unfold enterIdentifying
  try dsimp only
  repeat' first
    | with_reducible exact Changes.refl _ _
    | (simp only [changesTo_eq]
       refine ChangesTo.record rfl ?_ ?_
       rotate_left 1
       (refine ⟨fun p hp => ?_⟩; cases p <;> first | exact absurd (by decide) hp | rfl))
    | split

theorem settlePen_changes (s : State) :
    Changes [.reader, .display, .baseSamples, .late, .baseView, .locks, .freshness, .reported, .stream,
      .scanPeriod, .garage, .charging, .spuState, .view, .triggers, .mode, .live, .link, .queue, .btx, .choices]
      s (settlePen s) := by
  unfold settlePen
  try dsimp only
  repeat' first
    | with_reducible exact Changes.refl _ _
    | (simp only [changesTo_eq]
       refine ChangesTo.record rfl ?_ ?_
       rotate_left 1
       (refine ⟨fun p hp => ?_⟩; cases p <;> first | exact absurd (by decide) hp | rfl))
    | with_reducible refine Changes.step ?_ (chooseMode_changes _) (by decide)
    | split

theorem penAfresh_changes (s : State) :
    Changes [.reader, .display, .baseSamples, .late, .baseView, .locks, .freshness, .reported, .stream,
      .scanPeriod, .garage, .charging, .spuState, .view, .triggers, .mode, .live, .link, .queue, .btx, .choices]
      s (penAfresh s) := by
  unfold penAfresh
  try dsimp only
  repeat' first
    | with_reducible exact Changes.refl _ _
    | (simp only [changesTo_eq]
       refine ChangesTo.record rfl ?_ ?_
       rotate_left 1
       (refine ⟨fun p hp => ?_⟩; cases p <;> first | exact absurd (by decide) hp | rfl))
    | with_reducible refine Changes.step ?_ (settlePen_changes _) (by decide)
    | split

theorem pdetChanged_changes (level : Level) (s : State) :
    Changes [.reader, .display, .baseSamples, .late, .baseView, .locks, .freshness, .reported, .stream,
      .scanPeriod, .garage, .charging, .spuState, .view, .triggers, .mode, .live, .link, .queue, .btx, .choices]
      s (pdetChanged level s) := by
  unfold pdetChanged
  try dsimp only
  repeat' first
    | with_reducible exact Changes.refl _ _
    | (simp only [changesTo_eq]
       refine ChangesTo.record rfl ?_ ?_
       rotate_left 1
       (refine ⟨fun p hp => ?_⟩; cases p <;> first | exact absurd (by decide) hp | rfl))
    | with_reducible refine Changes.step ?_ (chooseMode_changes _) (by decide)
    | with_reducible refine Changes.step ?_ (settlePen_changes _) (by decide)
    | split

theorem penSettled_changes (s : State) :
    Changes [.reader, .display, .baseSamples, .late, .baseView, .locks, .freshness, .reported, .stream,
      .scanPeriod, .garage, .polls, .charging, .spuState, .view, .triggers, .causes, .episode, .mode, .live,
      .link, .queue, .btx, .queries, .choices] s (penSettled s) := by
  unfold penSettled
  try dsimp only
  repeat' first
    | with_reducible exact Changes.refl _ _
    | (refine fun (s : State) => ?_; try dsimp only)
    | (simp only [changesTo_eq]
       refine ChangesTo.record rfl ?_ ?_
       rotate_left 1
       (refine ⟨fun p hp => ?_⟩; cases p <;> first | exact absurd (by decide) hp | rfl))
    | with_reducible refine Changes.step ?_ (enterIdentifying_changes _) (by decide)
    | with_reducible refine Changes.step ?_ (startPoll_changes _) (by decide)
    | with_reducible refine Changes.trans ?_ (pdcStep_changes (by decide) ?_ _)
    | split
    | (refine ⟨fun p hp => ?_⟩; cases p <;> first | exact absurd (by decide) hp | rfl)

theorem penRemoved_changes (s : State) :
    Changes [.reader, .display, .baseSamples, .late, .baseView, .locks, .freshness, .reported, .stream,
      .scanPeriod, .penClaim, .grants, .garage, .polls, .charging, .penLast, .spuState, .view, .triggers,
      .causes, .episode, .mode, .live, .link, .queue, .btx, .choices] s (penRemoved s) := by
  unfold penRemoved
  try dsimp only
  repeat' first
    | with_reducible exact Changes.refl _ _
    | (refine fun (s : State) => ?_; try dsimp only)
    | (simp only [changesTo_eq]
       refine ChangesTo.record rfl ?_ ?_
       rotate_left 1
       (refine ⟨fun p hp => ?_⟩; cases p <;> first | exact absurd (by decide) hp | rfl))
    | with_reducible refine Changes.step ?_ (penAfresh_changes _) (by decide)
    | with_reducible refine Changes.step ?_ (removePen_changes _) (by decide)
    | with_reducible refine Changes.trans ?_ (pdcStep_changes (by decide) ?_ _)
    | split
    | (refine ⟨fun p hp => ?_⟩; cases p <;> first | exact absurd (by decide) hp | rfl)

theorem advancePhase_changes (mv : Nat) (s : State) :
    Changes [.penClaim, .grants, .polls, .charging] s (advancePhase mv s) := by
  unfold advancePhase
  try dsimp only
  repeat' first
    | with_reducible exact Changes.refl _ _
    | (simp only [changesTo_eq]
       refine ChangesTo.record rfl ?_ ?_
       rotate_left 1
       (refine ⟨fun p hp => ?_⟩; cases p <;> first | exact absurd (by decide) hp | rfl))
    | with_reducible refine Changes.step ?_ (enterPhase_changes _ _) (by decide)
    | split

theorem ownHandling_changes (st : PenStatus) (s : State) :
    Changes [.penClaim, .grants, .polls, .charging, .live, .latched, .history, .link, .queue] s (ownHandling st
      s) := by
  unfold ownHandling
  try dsimp only
  repeat' first
    | with_reducible exact Changes.refl _ _
    | (simp only [changesTo_eq]
       refine ChangesTo.record rfl ?_ ?_
       rotate_left 1
       (refine ⟨fun p hp => ?_⟩; cases p <;> first | exact absurd (by decide) hp | rfl))
    | with_reducible refine Changes.step ?_ (advancePhase_changes _ _) (by decide)
    | with_reducible refine Changes.step ?_ (phaseChoice_changes _) (by decide)
    | split

theorem takeStatus_changes (st : PenStatus) (s : State) :
    Changes [.penClaim, .grants, .polls, .charging, .penLast, .live, .latched, .history, .link, .queue] s
      (takeStatus st s) := by
  unfold takeStatus
  try dsimp only
  repeat' first
    | with_reducible exact Changes.refl _ _
    | (simp only [changesTo_eq]
       refine ChangesTo.record rfl ?_ ?_
       rotate_left 1
       (refine ⟨fun p hp => ?_⟩; cases p <;> first | exact absurd (by decide) hp | rfl))
    | with_reducible refine Changes.step ?_ (ownHandling_changes _ _) (by decide)
    | with_reducible refine Changes.step ?_ (changeReasons_changes _ _) (by decide)
    | with_reducible refine Changes.step ?_ (enterFault_changes _ _) (by decide)
    | split

theorem handleStatus_changes (st : PenStatus) (s : State) :
    Changes [.reader, .display, .baseSamples, .late, .baseView, .locks, .freshness, .reported, .stream,
      .scanPeriod, .penClaim, .grants, .polls, .charging, .penLast, .spuState, .view, .triggers, .causes,
      .episode, .mode, .live, .latched, .history, .link, .queue, .btx, .choices] s (handleStatus st s) := by
  unfold handleStatus
  try dsimp only
  repeat' first
    | with_reducible exact Changes.refl _ _
    | (refine fun (s : State) => ?_; try dsimp only)
    | (simp only [changesTo_eq]
       refine ChangesTo.record rfl ?_ ?_
       rotate_left 1
       (refine ⟨fun p hp => ?_⟩; cases p <;> first | exact absurd (by decide) hp | rfl))
    | with_reducible refine Changes.step ?_ (takeStatus_changes _ _) (by decide)
    | with_reducible refine Changes.step ?_ (enterIdentifying_changes _) (by decide)
    | with_reducible refine Changes.step ?_ (removePen_changes _) (by decide)
    | with_reducible refine Changes.step ?_ (endPoll_changes _) (by decide)
    | with_reducible refine Changes.trans ?_ (pdcStep_changes (by decide) ?_ _)
    | split
    | (refine ⟨fun p hp => ?_⟩; cases p <;> first | exact absurd (by decide) hp | rfl)

theorem penStatusArrived_changes (intact : Bool) (st : PenStatus) (s : State) :
    Changes [.reader, .display, .baseSamples, .late, .baseView, .locks, .freshness, .reported, .stream,
      .scanPeriod, .penClaim, .grants, .polls, .charging, .penLast, .spuState, .view, .triggers, .causes,
      .episode, .mode, .live, .latched, .history, .link, .queue, .btx, .choices] s (penStatusArrived intact st
      s) := by
  unfold penStatusArrived
  try dsimp only
  repeat' first
    | with_reducible exact Changes.refl _ _
    | (simp only [changesTo_eq]
       refine ChangesTo.record rfl ?_ ?_
       rotate_left 1
       (refine ⟨fun p hp => ?_⟩; cases p <;> first | exact absurd (by decide) hp | rfl))
    | with_reducible refine Changes.step ?_ (handleStatus_changes _ _) (by decide)
    | split

theorem pollUnanswered_changes (s : State) :
    Changes [.reader, .display, .baseSamples, .late, .baseView, .locks, .freshness, .reported, .stream,
      .scanPeriod, .penClaim, .grants, .polls, .charging, .spuState, .view, .triggers, .causes, .episode, .mode,
      .live, .latched, .history, .link, .queue, .btx, .choices] s (pollUnanswered s) := by
  unfold pollUnanswered
  try dsimp only
  repeat' first
    | with_reducible exact Changes.refl _ _
    | (refine fun (s : State) => ?_; try dsimp only)
    | (simp only [changesTo_eq]
       refine ChangesTo.record rfl ?_ ?_
       rotate_left 1
       (refine ⟨fun p hp => ?_⟩; cases p <;> first | exact absurd (by decide) hp | rfl))
    | with_reducible refine Changes.step ?_ (enterFault_changes _ _) (by decide)
    | with_reducible refine Changes.step ?_ (endPoll_changes _) (by decide)
    | with_reducible refine Changes.trans ?_ (pdcStep_changes (by decide) ?_ _)
    | split
    | (refine ⟨fun p hp => ?_⟩; cases p <;> first | exact absurd (by decide) hp | rfl)

theorem penReading_changes (current : Nat) (s : State) :
    Changes [.reader, .display, .baseSamples, .late, .baseView, .locks, .freshness, .reported, .stream,
      .scanPeriod, .penClaim, .grants, .polls, .charging, .spuState, .view, .triggers, .causes, .episode, .mode,
      .live, .link, .queue, .btx, .choices] s (penReading current s) := by
  unfold penReading
  try dsimp only
  repeat' first
    | with_reducible exact Changes.refl _ _
    | (refine fun (s : State) => ?_; try dsimp only)
    | (simp only [changesTo_eq]
       refine ChangesTo.record rfl ?_ ?_
       rotate_left 1
       (refine ⟨fun p hp => ?_⟩; cases p <;> first | exact absurd (by decide) hp | rfl))
    | with_reducible refine Changes.step ?_ (reachFull_changes _) (by decide)
    | with_reducible refine Changes.trans ?_ (pdcStep_changes (by decide) ?_ _)
    | split
    | (refine ⟨fun p hp => ?_⟩; cases p <;> first | exact absurd (by decide) hp | rfl)

theorem prechargeExpired_changes (s : State) :
    Changes [.now, .reader, .display, .baseSamples, .late, .baseView, .locks, .freshness, .reported, .stream,
      .scanPeriod, .penClaim, .grants, .polls, .charging, .spuState, .view, .triggers, .causes, .episode, .mode,
      .live, .latched, .history, .link, .queue, .btx, .choices] s (prechargeExpired s) := by
  unfold prechargeExpired
  try dsimp only
  repeat' first
    | with_reducible exact Changes.refl _ _
    | (refine fun (s : State) => ?_; try dsimp only)
    | (simp only [changesTo_eq]
       refine ChangesTo.record rfl ?_ ?_
       rotate_left 1
       (refine ⟨fun p hp => ?_⟩; cases p <;> first | exact absurd (by decide) hp | rfl))
    | with_reducible refine Changes.step ?_ (enterFault_changes _ _) (by decide)
    | with_reducible refine Changes.trans ?_ (pdcStep_changes (by decide) ?_ _)
    | with_reducible refine Changes.step ?_ (advance_changes _ _) (by decide)
    | split
    | (refine ⟨fun p hp => ?_⟩; cases p <;> first | exact absurd (by decide) hp | rfl)

theorem safetyExpired_changes (s : State) :
    Changes [.now, .reader, .display, .baseSamples, .late, .baseView, .locks, .freshness, .reported, .stream,
      .scanPeriod, .penClaim, .grants, .polls, .charging, .spuState, .view, .triggers, .causes, .episode, .mode,
      .live, .latched, .history, .link, .queue, .btx, .choices] s (safetyExpired s) := by
  unfold safetyExpired
  try dsimp only
  repeat' first
    | with_reducible exact Changes.refl _ _
    | (refine fun (s : State) => ?_; try dsimp only)
    | (simp only [changesTo_eq]
       refine ChangesTo.record rfl ?_ ?_
       rotate_left 1
       (refine ⟨fun p hp => ?_⟩; cases p <;> first | exact absurd (by decide) hp | rfl))
    | with_reducible refine Changes.step ?_ (enterFault_changes _ _) (by decide)
    | with_reducible refine Changes.trans ?_ (pdcStep_changes (by decide) ?_ _)
    | with_reducible refine Changes.step ?_ (advance_changes _ _) (by decide)
    | split
    | (refine ⟨fun p hp => ?_⟩; cases p <;> first | exact absurd (by decide) hp | rfl)

theorem serveGetPen_changes (place : Nat) (s : State) :
    Changes [.link, .queue] s (serveGetPen place s) := by
  unfold serveGetPen
  try dsimp only
  repeat' first
    | with_reducible exact Changes.refl _ _
    | (simp only [changesTo_eq]
       refine ChangesTo.record rfl ?_ ?_
       rotate_left 1
       (refine ⟨fun p hp => ?_⟩; cases p <;> first | exact absurd (by decide) hp | rfl))
    | with_reducible refine Changes.step ?_ (answer_changes _ _ _) (by decide)
    | split

theorem replacePen_changes (p : PenSettings) (s : State) :
    Changes [.penSettings, .reader, .display, .baseSamples, .late, .baseView, .locks, .freshness, .reported,
      .stream, .scanPeriod, .penClaim, .grants, .polls, .charging, .spuState, .view, .triggers, .causes,
      .episode, .mode, .live, .latched, .history, .link, .queue, .btx, .choices] s (replacePen p s) := by
  unfold replacePen
  try dsimp only
  repeat' first
    | with_reducible exact Changes.refl _ _
    | (refine fun (s : State) => ?_; try dsimp only)
    | (simp only [changesTo_eq]
       refine ChangesTo.record rfl ?_ ?_
       rotate_left 1
       (refine ⟨fun p hp => ?_⟩; cases p <;> first | exact absurd (by decide) hp | rfl))
    | with_reducible refine Changes.step ?_ (changeReasons_changes _ _) (by decide)
    | with_reducible refine Changes.step ?_ (enterPhase_changes _ _) (by decide)
    | with_reducible refine Changes.trans ?_ (pdcStep_changes (by decide) ?_ _)
    | split
    | (refine ⟨fun p hp => ?_⟩; cases p <;> first | exact absurd (by decide) hp | rfl)

theorem serveSetPenCharging_changes (place : Nat) (payload : List Byte) (s : State) :
    Changes [.penSettings, .reader, .display, .baseSamples, .late, .baseView, .locks, .freshness, .reported,
      .stream, .scanPeriod, .penClaim, .grants, .polls, .charging, .spuState, .view, .triggers, .causes,
      .episode, .mode, .live, .latched, .history, .link, .queue, .btx, .choices] s (serveSetPenCharging place
      payload s) := by
  unfold serveSetPenCharging
  try dsimp only
  repeat' first
    | with_reducible exact Changes.refl _ _
    | (refine fun (s : State) => ?_; try dsimp only)
    | (simp only [changesTo_eq]
       refine ChangesTo.record rfl ?_ ?_
       rotate_left 1
       (refine ⟨fun p hp => ?_⟩; cases p <;> first | exact absurd (by decide) hp | rfl))
    | with_reducible refine Changes.step ?_ (replacePen_changes _ _) (by decide)
    | with_reducible refine Changes.step ?_ (answer_changes _ _ _) (by decide)
    | with_reducible refine Changes.trans ?_ (raceLc_changes (by decide) ?_ ?_ _)
    | split
    | (refine ⟨fun p hp => ?_⟩; cases p <;> first | exact absurd (by decide) hp | rfl)

theorem startCommit_changes (s : State) :
    Changes [.image, .commit] s (startCommit s) := by
  unfold startCommit
  try dsimp only
  repeat' first
    | with_reducible exact Changes.refl _ _
    | (simp only [changesTo_eq]
       refine ChangesTo.record rfl ?_ ?_
       rotate_left 1
       (refine ⟨fun p hp => ?_⟩; cases p <;> first | exact absurd (by decide) hp | rfl))
    | split

theorem requestCommit_changes (s : State) :
    Changes [.image, .commit] s (requestCommit s) := by
  unfold requestCommit; split
  · exact startCommit_changes s
  · refine ⟨fun p hp => ?_⟩; cases p <;> first | exact absurd (by decide) hp | rfl
  · refine ⟨fun p hp => ?_⟩; cases p <;> first | exact absurd (by decide) hp | rfl

theorem writeDone_changes (faulty : Option Image) (s : State) :
    Changes [.image, .commit] s (writeDone faulty s) := by
  unfold writeDone; split
  · refine ⟨fun p hp => ?_⟩; cases p <;> first | exact absurd (by decide) hp | rfl
  · exact Changes.refl _ _
  · exact Changes.refl _ _

theorem endCommit_changes (written : Bool) (s : State) :
    Changes [.link, .queue, .image, .commit] s (endCommit written s) := by
  have h : Changes [.link, .queue, .image, .commit] s
      (if runningSaves s.ss = [] then s
       else answerAll (runningSaves s.ss) (Reply.ok (.saved written (s.ss.attempt.getD 0))) s) := by
    split
    · exact Changes.refl _ _
    · exact (answerAll_changes _ _ _).mono (by decide)
  unfold endCommit; dsimp only
  generalize (if runningSaves s.ss = [] then s
    else answerAll (runningSaves s.ss) (Reply.ok (.saved written (s.ss.attempt.getD 0))) s) = x at h ⊢
  have h2 : Changes [.link, .queue, .image, .commit] s
      { x with ss := { x.ss with state := .idle, attempt := none, snapshot := none
                                 waiting := x.ss.waiting.filter fun w => w.mark == .pending } } := by
    refine h.trans ?_
    refine ⟨fun p hp => ?_⟩; cases p <;> first | exact absurd (by decide) hp | rfl
  split
  · exact h2.step (startCommit_changes _) (by decide)
  · exact h2

theorem verifyDone_changes (s : State) :
    Changes [.live, .latched, .history, .link, .queue, .image, .commit] s (verifyDone s) := by
  unfold verifyDone; split
  · exact Changes.refl _ _
  · exact Changes.refl _ _
  · split
    · exact (endCommit_changes _ _).mono (by decide)
    · split
      · refine ⟨fun p hp => ?_⟩; cases p <;> first | exact absurd (by decide) hp | rfl
      · refine Changes.step ?_ (endCommit_changes _ _) (by decide)
        refine Changes.step ?_ (rise_changes _ _ _) (by decide)
        refine ⟨fun p hp => ?_⟩; cases p <;> first | exact absurd (by decide) hp | rfl

theorem serveSaveSettings_changes (place : Nat) (s : State) :
    Changes [.image, .commit] s (serveSaveSettings place s) := by
  unfold serveSaveSettings; split
  · refine Changes.trans (t := { s with ss := { s.ss with waiting := s.ss.waiting ++ [{ place := place, mark := .running }] } }) ?_
      (startCommit_changes _)
    refine ⟨fun p hp => ?_⟩; cases p <;> first | exact absurd (by decide) hp | rfl
  · refine ⟨fun p hp => ?_⟩; cases p <;> first | exact absurd (by decide) hp | rfl
  · refine ⟨fun p hp => ?_⟩; cases p <;> first | exact absurd (by decide) hp | rfl

end Sys2Proof.Machine
end

