-- ==== Sys2Proof/Laws/FramesBase.lean ====
section
/-! SUPPORT. What each operation may change, as one lemma per operation: the operations of BM. -/

set_option linter.unusedTactic false
set_option linter.unreachableTactic false

namespace Sys2Proof.Machine

theorem fileBase_changes (amount : Nat) (s : State) :
    Changes [.reader, .display, .baseSamples, .late, .baseView, .locks, .freshness, .reported, .stream,
      .scanPeriod, .claims, .grants, .polls, .charging, .spuState, .view, .triggers, .causes, .episode, .mode,
      .live, .link, .queue, .btx, .choices] s (fileBase amount s) := by
  unfold fileBase
  try dsimp only
  repeat' first
    | with_reducible exact Changes.refl _ _
    | (simp only [changesTo_eq]
       refine ChangesTo.record rfl ?_ ?_
       rotate_left 1
       (refine ⟨fun p hp => ?_⟩; cases p <;> first | exact absurd (by decide) hp | rfl))
    | split
    | with_reducible refine Changes.step ?_ (noticePen_changes _) (by decide)

theorem withdrawBase_changes (s : State) :
    Changes [.reader, .display, .baseSamples, .late, .baseView, .locks, .freshness, .reported, .stream,
      .scanPeriod, .claims, .grants, .polls, .charging, .spuState, .view, .triggers, .causes, .episode, .mode,
      .live, .link, .queue, .btx, .choices] s (withdrawBase s) := by
  unfold withdrawBase
  try dsimp only
  repeat' first
    | with_reducible exact Changes.refl _ _
    | (simp only [changesTo_eq]
       refine ChangesTo.record rfl ?_ ?_
       rotate_left 1
       (refine ⟨fun p hp => ?_⟩; cases p <;> first | exact absurd (by decide) hp | rfl))
    | split
    | with_reducible refine Changes.step ?_ (noticePen_changes _) (by decide)

theorem fileLatch_changes (s : State) :
    Changes [.reader, .display, .baseSamples, .late, .baseView, .locks, .freshness, .reported, .stream,
      .scanPeriod, .claims, .grants, .polls, .charging, .spuState, .view, .triggers, .causes, .episode, .mode,
      .live, .link, .queue, .btx, .choices] s (fileLatch s) := by
  unfold fileLatch
  try dsimp only
  repeat' first
    | with_reducible exact Changes.refl _ _
    | (simp only [changesTo_eq]
       refine ChangesTo.record rfl ?_ ?_
       rotate_left 1
       (refine ⟨fun p hp => ?_⟩; cases p <;> first | exact absurd (by decide) hp | rfl))
    | split
    | with_reducible refine Changes.step ?_ (noticePen_changes _) (by decide)

theorem withdrawLatch_changes (s : State) :
    Changes [.reader, .display, .baseSamples, .late, .baseView, .locks, .freshness, .reported, .stream,
      .scanPeriod, .claims, .grants, .polls, .charging, .spuState, .view, .triggers, .causes, .episode, .mode,
      .live, .link, .queue, .btx, .choices] s (withdrawLatch s) := by
  unfold withdrawLatch
  try dsimp only
  repeat' first
    | with_reducible exact Changes.refl _ _
    | (simp only [changesTo_eq]
       refine ChangesTo.record rfl ?_ ?_
       rotate_left 1
       (refine ⟨fun p hp => ?_⟩; cases p <;> first | exact absurd (by decide) hp | rfl))
    | split
    | with_reducible refine Changes.step ?_ (noticePen_changes _) (by decide)

theorem spuBm_changes (attach : Bool) (s : State) :
    Changes [.reader, .display, .baseSamples, .late, .baseView, .locks, .freshness, .reported, .stream,
      .scanPeriod, .spuState, .view, .triggers, .causes, .episode, .mode, .live, .link, .queue, .btx, .choices]
      s (spuBm attach s) := by
  unfold spuBm
  try dsimp only
  repeat' first
    | with_reducible exact Changes.refl _ _
    | (simp only [changesTo_eq]
       refine ChangesTo.record rfl ?_ ?_
       rotate_left 1
       (refine ⟨fun p hp => ?_⟩; cases p <;> first | exact absurd (by decide) hp | rfl))
    | split
    | with_reducible refine Changes.step ?_ (cause_changes _ _) (by decide)
    | with_reducible refine Changes.step ?_ (chooseMode_changes _) (by decide)

/-- BM's report of its state changes what BM's own acts change, and what SFE, PE and SPU change at it. -/
theorem bmReport_changes {m : List Part} {a : Bool} {f : State → State}
    (hm : [.reader, .display, .baseSamples, .late, .baseView, .locks, .forcing, .freshness, .abstain, .reported, .hingeBase, .stream, .scanPeriod, .spuState, .view, .triggers, .causes, .episode, .mode, .live, .link, .queue, .btx, .choices] ⊆ m) (hf : ∀ s, Changes m s (f s)) (s : State) :
    Changes m s (bmReport a f s) := by
  have hv : Changes m s (sfeView s) := (sfeView_changes s).mono fun x hx => hm (by simp at hx; rcases hx with rfl | rfl | rfl <;> simp)
  unfold bmReport; dsimp only; split
  · exact hv.trans (hf _)
  · exact hv.trans (anyOrder_changes (fun x hx => hm (by simp at hx; simp [hx])) (fun t => (peBm_changes t).mono hm)
      (fun t => (spuBm_changes _ t).mono fun x hx => hm (by
        revert hx; revert x; decide)) hf _)

theorem toAbsent_changes (s : State) :
    Changes [.presence, .bmState, .identify, .stream, .marks, .active, .attempt, .lsol] s (toAbsent s) := by
  unfold toAbsent
  try dsimp only
  repeat' first
    | with_reducible exact Changes.refl _ _
    | (simp only [changesTo_eq]
       refine ChangesTo.record rfl ?_ ?_
       rotate_left 1
       (refine ⟨fun p hp => ?_⟩; cases p <;> first | exact absurd (by decide) hp | rfl))
    | split

theorem toSettling_changes (s : State) :
    Changes [.presence, .bmState] s (toSettling s) := by
  unfold toSettling
  try dsimp only
  repeat' first
    | with_reducible exact Changes.refl _ _
    | (simp only [changesTo_eq]
       refine ChangesTo.record rfl ?_ ?_
       rotate_left 1
       (refine ⟨fun p hp => ?_⟩; cases p <;> first | exact absurd (by decide) hp | rfl))
    | split

theorem takeAfresh_changes (s : State) :
    Changes [.presence, .bmState] s (takeAfresh s) := by
  unfold takeAfresh
  try dsimp only
  repeat' first
    | with_reducible exact Changes.refl _ _
    | (simp only [changesTo_eq]
       refine ChangesTo.record rfl ?_ ?_
       rotate_left 1
       (refine ⟨fun p hp => ?_⟩; cases p <;> first | exact absurd (by decide) hp | rfl))
    | split
    | with_reducible refine Changes.step ?_ (toSettling_changes _) (by decide)

theorem bpresChanged_changes (level : Level) (s : State) :
    Changes [.reader, .display, .baseSamples, .late, .baseView, .locks, .forcing, .freshness, .abstain,
      .reported, .hingeBase, .presence, .bmState, .stream, .scanPeriod, .spuState, .view, .triggers, .causes,
      .episode, .mode, .live, .link, .queue, .btx, .choices] s (bpresChanged level s) := by
  unfold bpresChanged
  try dsimp only
  repeat' first
    | with_reducible exact Changes.refl _ _
    | (refine fun (s : State) => ?_; try dsimp only)
    | (simp only [changesTo_eq]
       refine ChangesTo.record rfl ?_ ?_
       rotate_left 1
       (refine ⟨fun p hp => ?_⟩; cases p <;> first | exact absurd (by decide) hp | rfl))
    | split
    | with_reducible refine Changes.step ?_ (toSettling_changes _) (by decide)
    | with_reducible refine Changes.trans ?_ (bmReport_changes (by decide) ?_ _)
    | (refine ⟨fun p hp => ?_⟩; cases p <;> first | exact absurd (by decide) hp | rfl)

theorem askIdentity_changes (s : State) :
    Changes [.identify, .btx] s (askIdentity s) := by
  unfold askIdentity
  try dsimp only
  repeat' first
    | with_reducible exact Changes.refl _ _
    | (simp only [changesTo_eq]
       refine ChangesTo.record rfl ?_ ?_
       rotate_left 1
       (refine ⟨fun p hp => ?_⟩; cases p <;> first | exact absurd (by decide) hp | rfl))
    | split
    | with_reducible refine Changes.step ?_ (sendBase_changes _ _) (by decide)

theorem startIdentify_changes (s : State) :
    Changes [.reader, .display, .baseSamples, .late, .baseView, .locks, .forcing, .freshness, .abstain,
      .reported, .hingeBase, .bmState, .identify, .stream, .scanPeriod, .spuState, .view, .triggers, .causes,
      .episode, .mode, .live, .link, .queue, .btx, .choices] s (startIdentify s) := by
  unfold startIdentify
  try dsimp only
  repeat' first
    | with_reducible exact Changes.refl _ _
    | (refine fun (s : State) => ?_; try dsimp only)
    | (simp only [changesTo_eq]
       refine ChangesTo.record rfl ?_ ?_
       rotate_left 1
       (refine ⟨fun p hp => ?_⟩; cases p <;> first | exact absurd (by decide) hp | rfl))
    | split
    | with_reducible refine Changes.step ?_ (askIdentity_changes _) (by decide)
    | with_reducible refine Changes.trans ?_ (bmReport_changes (by decide) ?_ _)
    | (refine ⟨fun p hp => ?_⟩; cases p <;> first | exact absurd (by decide) hp | rfl)

theorem powerIfGranted_changes (s : State) :
    Changes [.reader, .display, .baseSamples, .late, .baseView, .locks, .forcing, .freshness, .abstain,
      .reported, .hingeBase, .bmState, .identify, .stream, .scanPeriod, .spuState, .view, .triggers, .causes,
      .episode, .mode, .live, .link, .queue, .btx, .choices] s (powerIfGranted s) := by
  unfold powerIfGranted
  try dsimp only
  repeat' first
    | with_reducible exact Changes.refl _ _
    | (simp only [changesTo_eq]
       refine ChangesTo.record rfl ?_ ?_
       rotate_left 1
       (refine ⟨fun p hp => ?_⟩; cases p <;> first | exact absurd (by decide) hp | rfl))
    | split
    | with_reducible refine Changes.step ?_ (startIdentify_changes _) (by decide)

theorem toPowering_changes (amount : Nat) (s : State) :
    Changes [.reader, .display, .baseSamples, .late, .baseView, .locks, .forcing, .freshness, .abstain,
      .reported, .hingeBase, .presence, .bmState, .identify, .stream, .scanPeriod, .claims, .grants, .polls,
      .charging, .spuState, .view, .triggers, .causes, .episode, .mode, .live, .link, .queue, .btx, .choices] s
      (toPowering amount s) := by
  unfold toPowering
  try dsimp only
  repeat' first
    | with_reducible exact Changes.refl _ _
    | (refine fun (s : State) => ?_; try dsimp only)
    | (simp only [changesTo_eq]
       refine ChangesTo.record rfl ?_ ?_
       rotate_left 1
       (refine ⟨fun p hp => ?_⟩; cases p <;> first | exact absurd (by decide) hp | rfl))
    | split
    | with_reducible refine Changes.step ?_ (powerIfGranted_changes _) (by decide)
    | with_reducible refine Changes.trans ?_ (bmReport_changes (by decide) ?_ _)
    | with_reducible refine Changes.step ?_ (fileBase_changes _ _) (by decide)
    | (refine ⟨fun p hp => ?_⟩; cases p <;> first | exact absurd (by decide) hp | rfl)

theorem baseSettled_changes (s : State) :
    Changes [.reader, .display, .baseSamples, .late, .baseView, .locks, .forcing, .freshness, .abstain,
      .reported, .hingeBase, .presence, .bmState, .identify, .stream, .scanPeriod, .claims, .grants, .polls,
      .charging, .spuState, .view, .triggers, .causes, .episode, .mode, .live, .link, .queue, .btx, .choices] s
      (baseSettled s) := by
  unfold baseSettled
  try dsimp only
  repeat' first
    | with_reducible exact Changes.refl _ _
    | (simp only [changesTo_eq]
       refine ChangesTo.record rfl ?_ ?_
       rotate_left 1
       (refine ⟨fun p hp => ?_⟩; cases p <;> first | exact absurd (by decide) hp | rfl))
    | split
    | with_reducible refine Changes.step ?_ (toPowering_changes _ _) (by decide)

theorem lossOfPowerAfter_changes {first : State → State}
    (hf : ∀ t, Changes [.live, .latched, .history, .link, .queue] t (first t)) (s : State) :
    Changes [.reader, .display, .baseSamples, .late, .baseView, .locks, .forcing, .freshness, .abstain,
      .reported, .hingeBase, .presence, .bmState, .identify, .stream, .active, .attempt, .scanPeriod, .claims,
      .grants, .polls, .charging, .spuState, .view, .triggers, .causes, .episode, .mode, .live, .latched,
      .history, .link, .queue, .btx, .choices] s (lossOfPowerAfter first s) := by
  unfold lossOfPowerAfter
  try dsimp only
  repeat' first
    | with_reducible exact Changes.refl _ _
    | (refine fun (s : State) => ?_; try dsimp only)
    | (simp only [changesTo_eq]
       refine ChangesTo.record rfl ?_ ?_
       rotate_left 1
       (refine ⟨fun p hp => ?_⟩; cases p <;> first | exact absurd (by decide) hp | rfl))
    | split
    | with_reducible refine Changes.step ?_ (powerIfGranted_changes _) (by decide)
    | with_reducible refine Changes.trans ?_ (bmReport_changes (by decide) ?_ _)
    | with_reducible refine Changes.step ?_ (fileBase_changes _ _) (by decide)
    | with_reducible refine Changes.step ?_ (hf _) (by decide)
    | with_reducible refine Changes.step ?_ (rise_changes _ _ _) (by decide)
    | with_reducible refine Changes.step ?_ (offer_changes _ _) (by decide)
    | (refine ⟨fun p hp => ?_⟩; cases p <;> first | exact absurd (by decide) hp | rfl)

theorem lossOfPower_changes (s : State) :
    Changes [.reader, .display, .baseSamples, .late, .baseView, .locks, .forcing, .freshness, .abstain,
      .reported, .hingeBase, .presence, .bmState, .identify, .stream, .active, .attempt, .scanPeriod, .claims,
      .grants, .polls, .charging, .spuState, .view, .triggers, .causes, .episode, .mode, .live, .latched,
      .history, .link, .queue, .btx, .choices] s (lossOfPower s) :=
  lossOfPowerAfter_changes (fun t => Changes.refl _ t) s

theorem queryExpired_changes (s : State) :
    Changes [.reader, .display, .baseSamples, .late, .baseView, .locks, .forcing, .freshness, .abstain,
      .reported, .hingeBase, .bmState, .identify, .stream, .scanPeriod, .claims, .grants, .polls, .charging,
      .spuState, .view, .triggers, .causes, .episode, .mode, .live, .latched, .history, .link, .queue, .btx,
      .choices] s (queryExpired s) := by
  unfold queryExpired
  try dsimp only
  repeat' first
    | with_reducible exact Changes.refl _ _
    | (refine fun (s : State) => ?_; try dsimp only)
    | (simp only [changesTo_eq]
       refine ChangesTo.record rfl ?_ ?_
       rotate_left 1
       (refine ⟨fun p hp => ?_⟩; cases p <;> first | exact absurd (by decide) hp | rfl))
    | split
    | with_reducible refine Changes.trans ?_ (bmReport_changes (by decide) ?_ _)
    | with_reducible refine Changes.step ?_ (withdrawBase_changes _) (by decide)
    | with_reducible refine Changes.step ?_ (rise_changes _ _ _) (by decide)
    | (refine ⟨fun p hp => ?_⟩; cases p <;> first | exact absurd (by decide) hp | rfl)

theorem cyclingExpired_changes (s : State) :
    Changes [.identify, .btx] s (cyclingExpired s) := by
  unfold cyclingExpired
  try dsimp only
  repeat' first
    | with_reducible exact Changes.refl _ _
    | (simp only [changesTo_eq]
       refine ChangesTo.record rfl ?_ ?_
       rotate_left 1
       (refine ⟨fun p hp => ?_⟩; cases p <;> first | exact absurd (by decide) hp | rfl))
    | split
    | with_reducible refine Changes.step ?_ (askIdentity_changes _) (by decide)

theorem setTable_changes (t : List BaseEntry) (s : State) :
    Changes [.table, .image, .commit] s (setTable t s) := by
  unfold setTable
  try dsimp only
  repeat' first
    | with_reducible exact Changes.refl _ _
    | (simp only [changesTo_eq]
       refine ChangesTo.record rfl ?_ ?_
       rotate_left 1
       (refine ⟨fun p hp => ?_⟩; cases p <;> first | exact absurd (by decide) hp | rfl))
    | split
    | with_reducible refine Changes.step ?_ (requestCommit_changes _) (by decide)

theorem createEntry_changes (i : Identity) (s : State) :
    Changes [.table, .marks, .image, .commit] s (createEntry i s) := by
  unfold createEntry
  try dsimp only
  repeat' first
    | with_reducible exact Changes.refl _ _
    | (simp only [changesTo_eq]
       refine ChangesTo.record rfl ?_ ?_
       rotate_left 1
       (refine ⟨fun p hp => ?_⟩; cases p <;> first | exact absurd (by decide) hp | rfl))
    | split
    | with_reducible refine Changes.step ?_ (setTable_changes _ _) (by decide)

theorem startStream_changes (s : State) :
    Changes [.late, .baseView, .stream, .live, .btx] s (startStream s) := by
  unfold startStream
  try dsimp only
  repeat' first
    | with_reducible exact Changes.refl _ _
    | (simp only [changesTo_eq]
       refine ChangesTo.record rfl ?_ ?_
       rotate_left 1
       (refine ⟨fun p hp => ?_⟩; cases p <;> first | exact absurd (by decide) hp | rfl))
    | split
    | with_reducible refine Changes.step ?_ (quiesceStream_changes _) (by decide)
    | with_reducible refine Changes.step ?_ (sendBase_changes _ _) (by decide)

theorem emitAttached_changes (i : Identity) (offset : Int) (s : State) :
    Changes [.marks, .link, .queue] s (emitAttached i offset s) := by
  unfold emitAttached
  try dsimp only
  repeat' first
    | with_reducible exact Changes.refl _ _
    | (simp only [changesTo_eq]
       refine ChangesTo.record rfl ?_ ?_
       rotate_left 1
       (refine ⟨fun p hp => ?_⟩; cases p <;> first | exact absurd (by decide) hp | rfl))
    | split
    | with_reducible refine Changes.step ?_ (offer_changes _ _) (by decide)

theorem toAttached_changes (i : Identity) (s : State) :
    Changes [.reader, .display, .baseSamples, .late, .baseView, .locks, .forcing, .freshness, .abstain,
      .reported, .hingeBase, .bmState, .identify, .stream, .marks, .active, .scanPeriod, .spuState, .view,
      .triggers, .causes, .episode, .mode, .live, .link, .queue, .btx, .choices] s (toAttached i s) := by
  unfold toAttached
  try dsimp only
  repeat' first
    | with_reducible exact Changes.refl _ _
    | (refine fun (s : State) => ?_; try dsimp only)
    | (simp only [changesTo_eq]
       refine ChangesTo.record rfl ?_ ?_
       rotate_left 1
       (refine ⟨fun p hp => ?_⟩; cases p <;> first | exact absurd (by decide) hp | rfl))
    | split
    | with_reducible refine Changes.step ?_ (emitAttached_changes _ _ _) (by decide)
    | with_reducible refine Changes.step ?_ (startStream_changes _) (by decide)
    | with_reducible refine Changes.trans ?_ (bmReport_changes (by decide) ?_ _)
    | with_reducible refine Changes.step ?_ (peBase_changes _ _ _) (by decide)
    | with_reducible refine Changes.step ?_ (breakBase_changes _) (by decide)
    | (refine ⟨fun p hp => ?_⟩; cases p <;> first | exact absurd (by decide) hp | rfl)

theorem toRefused_changes (i : Identity) (s : State) :
    Changes [.reader, .display, .baseSamples, .late, .baseView, .locks, .forcing, .freshness, .abstain,
      .reported, .hingeBase, .bmState, .identify, .stream, .scanPeriod, .claims, .grants, .polls, .charging,
      .spuState, .view, .triggers, .causes, .episode, .mode, .live, .link, .queue, .btx, .choices] s (toRefused
      i s) := by
  unfold toRefused
  try dsimp only
  repeat' first
    | with_reducible exact Changes.refl _ _
    | (refine fun (s : State) => ?_; try dsimp only)
    | (simp only [changesTo_eq]
       refine ChangesTo.record rfl ?_ ?_
       rotate_left 1
       (refine ⟨fun p hp => ?_⟩; cases p <;> first | exact absurd (by decide) hp | rfl))
    | split
    | with_reducible refine Changes.trans ?_ (bmReport_changes (by decide) ?_ _)
    | with_reducible refine Changes.step ?_ (withdrawBase_changes _) (by decide)
    | with_reducible refine Changes.step ?_ (offer_changes _ _) (by decide)
    | (refine ⟨fun p hp => ?_⟩; cases p <;> first | exact absurd (by decide) hp | rfl)

theorem identityCheck_changes (i : Identity) (s : State) :
    Changes [.table, .reader, .display, .baseSamples, .late, .baseView, .locks, .forcing, .freshness, .abstain,
      .reported, .hingeBase, .bmState, .identify, .stream, .marks, .active, .scanPeriod, .claims, .grants,
      .polls, .charging, .spuState, .view, .triggers, .causes, .episode, .mode, .live, .link, .queue, .image,
      .commit, .btx, .choices] s (identityCheck i s) := by
  unfold identityCheck; split
  · refine Changes.step ?_ (toAttached_changes _ _) (by decide)
    exact (setTable_changes _ _).mono (by decide)
  · split
    · refine Changes.step ?_ (toAttached_changes _ _) (by decide)
      exact (createEntry_changes _ _).mono (by decide)
    · exact (toRefused_changes _ _).mono (by decide)

theorem takeIdent_changes (i : Identity) (s : State) :
    Changes [.table, .reader, .display, .baseSamples, .late, .baseView, .locks, .forcing, .freshness, .abstain,
      .reported, .hingeBase, .presence, .bmState, .identify, .stream, .marks, .active, .scanPeriod, .claims,
      .grants, .polls, .charging, .spuState, .view, .triggers, .causes, .episode, .mode, .live, .link, .queue,
      .image, .commit, .btx, .choices] s (takeIdent i s) := by
  unfold takeIdent
  try dsimp only
  repeat' first
    | with_reducible exact Changes.refl _ _
    | (simp only [changesTo_eq]
       refine ChangesTo.record rfl ?_ ?_
       rotate_left 1
       (refine ⟨fun p hp => ?_⟩; cases p <;> first | exact absurd (by decide) hp | rfl))
    | split
    | with_reducible refine Changes.step ?_ (identityCheck_changes _ _) (by decide)
    | with_reducible refine Changes.step ?_ (toPowering_changes _ _) (by decide)
    | with_reducible refine Changes.step ?_ (fileBase_changes _ _) (by decide)

theorem streamPaused_changes (s : State) :
    Changes [.late, .baseView, .stream, .live] s (streamPaused s) := by
  unfold streamPaused
  try dsimp only
  repeat' first
    | with_reducible exact Changes.refl _ _
    | (simp only [changesTo_eq]
       refine ChangesTo.record rfl ?_ ?_
       rotate_left 1
       (refine ⟨fun p hp => ?_⟩; cases p <;> first | exact absurd (by decide) hp | rfl))
    | split
    | with_reducible refine Changes.step ?_ (sfeView_changes _) (by decide)

theorem attachAbandoned_changes (s : State) :
    Changes [.reader, .display, .baseSamples, .late, .baseView, .locks, .forcing, .freshness, .abstain,
      .reported, .hingeBase, .presence, .bmState, .identify, .stream, .marks, .active, .attempt, .lsol,
      .scanPeriod, .claims, .grants, .polls, .charging, .spuState, .view, .triggers, .causes, .episode, .mode,
      .live, .link, .queue, .btx, .choices] s (attachAbandoned s) := by
  unfold attachAbandoned; dsimp only
  refine Changes.step ?_ (takeAfresh_changes _) (by decide)
  refine Changes.trans ?_ (bmReport_changes (by decide) (fun t => Changes.refl _ t) _)
  refine Changes.step ?_ (withdrawBase_changes _) (by decide)
  refine Changes.step ?_ (toAbsent_changes _) (by decide)
  split
  · exact (fall_changes _ _).mono (by decide)
  · exact Changes.refl _ _

theorem baseLoss_changes (s : State) :
    Changes [.reader, .display, .baseSamples, .late, .baseView, .locks, .forcing, .freshness, .abstain,
      .reported, .hingeBase, .presence, .bmState, .identify, .stream, .marks, .active, .attempt, .lsol,
      .scanPeriod, .claims, .grants, .polls, .charging, .spuState, .view, .triggers, .causes, .episode, .mode,
      .live, .latched, .history, .link, .queue, .btx, .choices] s (baseLoss s) := by
  unfold baseLoss
  try dsimp only
  repeat' first
    | with_reducible exact Changes.refl _ _
    | (refine fun (s : State) => ?_; try dsimp only)
    | (simp only [changesTo_eq]
       refine ChangesTo.record rfl ?_ ?_
       rotate_left 1
       (refine ⟨fun p hp => ?_⟩; cases p <;> first | exact absurd (by decide) hp | rfl))
    | split
    | with_reducible refine Changes.step ?_ (takeAfresh_changes _) (by decide)
    | with_reducible refine Changes.step ?_ (toAbsent_changes _) (by decide)
    | with_reducible refine Changes.trans ?_ (bmReport_changes (by decide) ?_ _)
    | with_reducible refine Changes.step ?_ (withdrawBase_changes _) (by decide)
    | with_reducible refine Changes.step ?_ (rise_changes _ _ _) (by decide)
    | with_reducible refine Changes.step ?_ (offer_changes _ _) (by decide)
    | (refine ⟨fun p hp => ?_⟩; cases p <;> first | exact absurd (by decide) hp | rfl)

theorem serveListBases_changes (place : Nat) (s : State) :
    Changes [.link, .queue] s (serveListBases place s) := by
  unfold serveListBases
  try dsimp only
  repeat' first
    | with_reducible exact Changes.refl _ _
    | (simp only [changesTo_eq]
       refine ChangesTo.record rfl ?_ ?_
       rotate_left 1
       (refine ⟨fun p hp => ?_⟩; cases p <;> first | exact absurd (by decide) hp | rfl))
    | split
    | with_reducible refine Changes.step ?_ (answer_changes _ _ _) (by decide)

theorem activeOffset_changes (offset : Int) (s : State) :
    Changes [.baseSamples, .locks, .freshness, .reported, .hingeBase, .spuState, .view, .triggers, .link,
      .queue, .choices] s (activeOffset offset s) := by
  refine Changes.step ?_ (breakBase_changes _) (by decide)
  exact (peOffset_changes _ _).mono (by decide)

theorem putOffset_changes (e : BaseEntry) (offset : Int) (s : State) :
    Changes [.table, .baseSamples, .locks, .freshness, .reported, .hingeBase, .spuState, .view, .triggers,
      .link, .queue, .image, .commit, .choices] s (putOffset e offset s) := by
  unfold putOffset
  try dsimp only
  repeat' first
    | with_reducible exact Changes.refl _ _
    | (simp only [changesTo_eq]
       refine ChangesTo.record rfl ?_ ?_
       rotate_left 1
       (refine ⟨fun p hp => ?_⟩; cases p <;> first | exact absurd (by decide) hp | rfl))
    | split
    | with_reducible refine Changes.step ?_ (activeOffset_changes _ _) (by decide)
    | with_reducible refine Changes.step ?_ (setTable_changes _ _) (by decide)

theorem forgetActive_changes (e : BaseEntry) (s : State) :
    Changes [.table, .baseSamples, .locks, .freshness, .reported, .hingeBase, .spuState, .view, .triggers,
      .link, .queue, .image, .commit, .choices] s (forgetActive e s) := by
  unfold forgetActive
  try dsimp only
  repeat' first
    | with_reducible exact Changes.refl _ _
    | (simp only [changesTo_eq]
       refine ChangesTo.record rfl ?_ ?_
       rotate_left 1
       (refine ⟨fun p hp => ?_⟩; cases p <;> first | exact absurd (by decide) hp | rfl))
    | split
    | with_reducible refine Changes.step ?_ (activeOffset_changes _ _) (by decide)
    | with_reducible refine Changes.step ?_ (setTable_changes _ _) (by decide)

theorem serveForgetBase_changes (place : Nat) (payload : List Byte) (s : State) :
    Changes [.table, .baseSamples, .locks, .freshness, .reported, .hingeBase, .spuState, .view, .triggers,
      .link, .queue, .image, .commit, .choices] s (serveForgetBase place payload s) := by
  unfold serveForgetBase
  try dsimp only
  repeat' first
    | with_reducible exact Changes.refl _ _
    | (refine fun (s : State) => ?_; try dsimp only)
    | (simp only [changesTo_eq]
       refine ChangesTo.record rfl ?_ ?_
       rotate_left 1
       (refine ⟨fun p hp => ?_⟩; cases p <;> first | exact absurd (by decide) hp | rfl))
    | split
    | with_reducible refine Changes.step ?_ (forgetActive_changes _ _) (by decide)
    | with_reducible refine Changes.step ?_ (setTable_changes _ _) (by decide)
    | with_reducible refine Changes.step ?_ (answer_changes _ _ _) (by decide)
    | with_reducible refine Changes.trans ?_ (raceLc_changes (by decide) ?_ ?_ _)
    | (refine ⟨fun p hp => ?_⟩; cases p <;> first | exact absurd (by decide) hp | rfl)

theorem serveSetBaseOffset_changes (place : Nat) (payload : List Byte) (s : State) :
    Changes [.table, .baseSamples, .locks, .freshness, .reported, .hingeBase, .spuState, .view, .triggers,
      .link, .queue, .image, .commit, .choices] s (serveSetBaseOffset place payload s) := by
  unfold serveSetBaseOffset
  try dsimp only
  repeat' first
    | with_reducible exact Changes.refl _ _
    | (refine fun (s : State) => ?_; try dsimp only)
    | (simp only [changesTo_eq]
       refine ChangesTo.record rfl ?_ ?_
       rotate_left 1
       (refine ⟨fun p hp => ?_⟩; cases p <;> first | exact absurd (by decide) hp | rfl))
    | split
    | with_reducible refine Changes.step ?_ (putOffset_changes _ _ _) (by decide)
    | with_reducible refine Changes.step ?_ (answer_changes _ _ _) (by decide)
    | with_reducible refine Changes.trans ?_ (raceLc_changes (by decide) ?_ ?_ _)
    | (refine ⟨fun p hp => ?_⟩; cases p <;> first | exact absurd (by decide) hp | rfl)

theorem serveAcceptBase_changes (place : Nat) (s : State) :
    Changes [.table, .reader, .display, .baseSamples, .late, .baseView, .locks, .forcing, .freshness, .abstain,
      .reported, .hingeBase, .presence, .bmState, .identify, .stream, .marks, .scanPeriod, .claims, .grants,
      .polls, .charging, .spuState, .view, .triggers, .causes, .episode, .mode, .live, .link, .queue, .image,
      .commit, .btx, .choices] s (serveAcceptBase place s) := by
  unfold serveAcceptBase
  try dsimp only
  repeat' first
    | with_reducible exact Changes.refl _ _
    | (simp only [changesTo_eq]
       refine ChangesTo.record rfl ?_ ?_
       rotate_left 1
       (refine ⟨fun p hp => ?_⟩; cases p <;> first | exact absurd (by decide) hp | rfl))
    | split
    | with_reducible refine Changes.step ?_ (createEntry_changes _ _) (by decide)
    | with_reducible refine Changes.step ?_ (toPowering_changes _ _) (by decide)
    | with_reducible refine Changes.step ?_ (answer_changes _ _ _) (by decide)

theorem serveSetBasePolicy_changes (place : Nat) (payload : List Byte) (s : State) :
    Changes [.basePolicy, .link, .queue] s (serveSetBasePolicy place payload s) := by
  unfold serveSetBasePolicy
  try dsimp only
  repeat' first
    | with_reducible exact Changes.refl _ _
    | (simp only [changesTo_eq]
       refine ChangesTo.record rfl ?_ ?_
       rotate_left 1
       (refine ⟨fun p hp => ?_⟩; cases p <;> first | exact absurd (by decide) hp | rfl))
    | split
    | with_reducible refine Changes.step ?_ (answer_changes _ _ _) (by decide)

theorem serveCalibrateHinge_changes (place : Nat) (payload : List Byte) (s : State) :
    Changes [.table, .baseSamples, .locks, .freshness, .reported, .hingeBase, .spuState, .view, .triggers,
      .link, .queue, .image, .commit, .choices] s (serveCalibrateHinge place payload s) := by
  unfold serveCalibrateHinge
  try dsimp only
  repeat' first
    | with_reducible exact Changes.refl _ _
    | (refine fun (s : State) => ?_; try dsimp only)
    | (simp only [changesTo_eq]
       refine ChangesTo.record rfl ?_ ?_
       rotate_left 1
       (refine ⟨fun p hp => ?_⟩; cases p <;> first | exact absurd (by decide) hp | rfl))
    | split
    | with_reducible refine Changes.step ?_ (putOffset_changes _ _ _) (by decide)
    | with_reducible refine Changes.step ?_ (answer_changes _ _ _) (by decide)
    | with_reducible refine Changes.trans ?_ (raceLc_changes (by decide) ?_ ?_ _)
    | (refine ⟨fun p hp => ?_⟩; cases p <;> first | exact absurd (by decide) hp | rfl)

theorem offerResult_changes (o : DetachOutcome) (serial : Option Serial) (s : State) :
    Changes [.link, .queue] s (offerResult o serial s) := by
  unfold offerResult
  try dsimp only
  repeat' first
    | with_reducible exact Changes.refl _ _
    | (simp only [changesTo_eq]
       refine ChangesTo.record rfl ?_ ?_
       rotate_left 1
       (refine ⟨fun p hp => ?_⟩; cases p <;> first | exact absurd (by decide) hp | rfl))
    | split
    | with_reducible refine Changes.step ?_ (offer_changes _ _) (by decide)

/-- The parts that the end of an attempt may change. -/
def endParts : List Part :=
  [.reader, .display, .baseSamples, .late, .baseView, .locks, .forcing, .freshness, .abstain,
    .reported, .hingeBase, .presence, .bmState, .identify, .stream, .active, .blink, .attempt, .scanPeriod,
    .claims, .grants, .polls, .charging, .spuState, .view, .triggers, .causes, .episode, .mode, .live,
    .latched, .history, .link, .queue, .btx, .choices]

theorem endAttemptAfter_changes {first : State → State} (o : DetachOutcome)
    (hfirst : ∀ t, Changes [.live, .latched, .history, .link, .queue] t (first t)) (s : State) :
    Changes endParts s (endAttemptAfter first o s) := by
  have tell : ∀ t, Changes [.live, .latched, .history, .link, .queue] t (offerResult o s.bm.active (first t)) := fun t =>
    Changes.step (hfirst t) (offerResult_changes _ _ _) (by decide)
  unfold endAttemptAfter
  dsimp only
  split
  · refine Changes.trans ?_ (eitherTime_changes (by decide) (by decide) tell (fun g hg t =>
      (lossOfPowerAfter_changes hg t).mono (by decide)) _)
    refine ⟨fun p hp => ?_⟩; cases p <;> first | exact absurd (by decide) hp | rfl
  · refine Changes.trans ?_ (bmReport_changes (by decide) ?_ _)
    · refine ⟨fun p hp => ?_⟩; cases p <;> first | exact absurd (by decide) hp | rfl
    · intro t
      refine raceLc_changes (by decide) (fun u => (tell u).mono (by decide)) (fun u => ?_) t
      exact (compareStream_changes u).mono (by decide)

theorem endAttempt_changes (o : DetachOutcome) (s : State) : Changes endParts s (endAttempt o s) :=
  endAttemptAfter_changes o (fun t => (Changes.refl _ t)) s

theorem endStuck_changes (detail : Nat) (s : State) : Changes endParts s (endStuck detail s) :=
  endAttemptAfter_changes _ (fun t => (rise_changes _ _ t).mono (by decide)) s

theorem toClosing_changes (why : ClosingReason) (s : State) :
    Changes [.reader, .display, .baseSamples, .late, .baseView, .locks, .forcing, .freshness, .abstain,
      .reported, .hingeBase, .presence, .bmState, .identify, .stream, .active, .blink, .attempt, .lsol,
      .scanPeriod, .claims, .grants, .polls, .charging, .spuState, .view, .triggers, .causes, .episode, .mode,
      .live, .latched, .history, .link, .queue, .btx, .choices] s (toClosing why s) := by
  unfold toClosing
  try dsimp only
  repeat' first
    | with_reducible exact Changes.refl _ _
    | (refine fun (s : State) => ?_; try dsimp only)
    | (simp only [changesTo_eq]
       refine ChangesTo.record rfl ?_ ?_
       rotate_left 1
       (refine ⟨fun p hp => ?_⟩; cases p <;> first | exact absurd (by decide) hp | rfl))
    | split
    | with_reducible refine Changes.step ?_ (endAttempt_changes _ _) (by decide)
    | with_reducible refine Changes.trans ?_ (bmReport_changes (by decide) ?_ _)
    | with_reducible refine Changes.step ?_ (withdrawLatch_changes _) (by decide)
    | with_reducible refine Changes.step ?_ (compareStream_changes _) (by decide)
    | (refine ⟨fun p hp => ?_⟩; cases p <;> first | exact absurd (by decide) hp | rfl)

theorem startWindow_changes (s : State) :
    Changes [.attempt] s (startWindow s) := by
  unfold startWindow
  try dsimp only
  repeat' first
    | with_reducible exact Changes.refl _ _
    | (simp only [changesTo_eq]
       refine ChangesTo.record rfl ?_ ?_
       rotate_left 1
       (refine ⟨fun p hp => ?_⟩; cases p <;> first | exact absurd (by decide) hp | rfl))
    | split

theorem openCheck_changes (s : State) :
    Changes [.attempt, .lsol] s (openCheck s) := by
  unfold openCheck
  try dsimp only
  repeat' first
    | with_reducible exact Changes.refl _ _
    | (simp only [changesTo_eq]
       refine ChangesTo.record rfl ?_ ?_
       rotate_left 1
       (refine ⟨fun p hp => ?_⟩; cases p <;> first | exact absurd (by decide) hp | rfl))
    | split
    | with_reducible refine Changes.step ?_ (startWindow_changes _) (by decide)

theorem toReleasing_changes (s : State) :
    Changes [.reader, .display, .baseSamples, .late, .baseView, .locks, .forcing, .freshness, .abstain,
      .reported, .hingeBase, .bmState, .stream, .blink, .attempt, .lsol, .scanPeriod, .claims, .grants, .polls,
      .charging, .spuState, .view, .triggers, .causes, .episode, .mode, .live, .link, .queue, .btx, .choices] s
      (toReleasing s) := by
  have h1 := fun x : State => (fileLatch_changes x)
  unfold toReleasing; dsimp only
  have h2 : Changes ([.reader, .display, .baseSamples, .late, .baseView, .locks, .forcing, .freshness, .abstain, .reported, .hingeBase, .bmState, .stream, .blink, .attempt, .lsol, .scanPeriod, .claims, .grants, .polls, .charging, .spuState, .view, .triggers, .causes, .episode, .mode, .live, .link, .queue, .btx, .choices]) s
      (fileLatch (bmReport false compareStream
        { s with
          bm := { s.bm with state := .releasing }
          det := { s.det with
            blink := none, energised := false, deadline := .grantWait, timer := some (s.now + 1000) } })) := by
    refine Changes.step ?_ (fileLatch_changes _) (by decide)
    refine Changes.trans ?_ (bmReport_changes (by decide) (fun t => (compareStream_changes t).mono (by decide)) _)
    refine ⟨fun p hp => ?_⟩; cases p <;> first | exact absurd (by decide) hp | rfl
  dsimp only at h2
  split
  · exact h2.step (openCheck_changes _) (by decide)
  · exact h2

theorem giveUpLatch_changes (o : DetachOutcome) (s : State) :
    Changes [.reader, .display, .baseSamples, .late, .baseView, .locks, .forcing, .freshness, .abstain,
      .reported, .hingeBase, .presence, .bmState, .identify, .stream, .active, .blink, .attempt, .scanPeriod,
      .claims, .grants, .polls, .charging, .spuState, .view, .triggers, .causes, .episode, .mode, .live,
      .latched, .history, .link, .queue, .btx, .choices] s (giveUpLatch o s) := by
  unfold giveUpLatch
  try dsimp only
  repeat' first
    | with_reducible exact Changes.refl _ _
    | (simp only [changesTo_eq]
       refine ChangesTo.record rfl ?_ ?_
       rotate_left 1
       (refine ⟨fun p hp => ?_⟩; cases p <;> first | exact absurd (by decide) hp | rfl))
    | split
    | with_reducible refine Changes.step ?_ (endAttempt_changes _ _) (by decide)
    | with_reducible refine Changes.step ?_ (withdrawLatch_changes _) (by decide)

theorem noticeBase_changes (s : State) :
    Changes [.reader, .display, .baseSamples, .late, .baseView, .locks, .forcing, .freshness, .abstain,
      .reported, .hingeBase, .presence, .bmState, .identify, .stream, .active, .attempt, .scanPeriod, .claims,
      .grants, .polls, .charging, .spuState, .view, .triggers, .causes, .episode, .mode, .live, .latched,
      .history, .link, .queue, .btx, .choices] s (noticeBase s) := by
  unfold noticeBase; split
  · exact (powerIfGranted_changes _).mono (by decide)
  · split
    · exact Changes.refl _ _
    · exact (toPowering_changes _ _).mono (by decide)
  · split
    · exact Changes.refl _ _
    · exact (lossOfPower_changes _).mono (by decide)
  · split
    · exact Changes.refl _ _
    · exact (lossOfPower_changes _).mono (by decide)
  · split
    · exact Changes.refl _ _
    · refine ⟨fun p hp => ?_⟩; cases p <;> first | exact absurd (by decide) hp | rfl
  · split
    · exact Changes.refl _ _
    · refine ⟨fun p hp => ?_⟩; cases p <;> first | exact absurd (by decide) hp | rfl
  all_goals exact Changes.refl _ _

theorem noticeLatch_changes (s : State) :
    Changes [.reader, .display, .baseSamples, .late, .baseView, .locks, .forcing, .freshness, .abstain,
      .reported, .hingeBase, .presence, .bmState, .identify, .stream, .active, .blink, .attempt, .lsol,
      .scanPeriod, .claims, .grants, .polls, .charging, .spuState, .view, .triggers, .causes, .episode, .mode,
      .live, .latched, .history, .link, .queue, .btx, .choices] s (noticeLatch s) := by
  unfold noticeLatch
  try dsimp only
  repeat' first
    | with_reducible exact Changes.refl _ _
    | (simp only [changesTo_eq]
       refine ChangesTo.record rfl ?_ ?_
       rotate_left 1
       (refine ⟨fun p hp => ?_⟩; cases p <;> first | exact absurd (by decide) hp | rfl))
    | split
    | with_reducible refine Changes.step ?_ (openCheck_changes _) (by decide)
    | with_reducible refine Changes.step ?_ (toClosing_changes _ _) (by decide)

theorem noticeAll_changes (old : Grants) (s : State) :
    Changes [.reader, .display, .baseSamples, .late, .baseView, .locks, .forcing, .freshness, .abstain,
      .reported, .hingeBase, .presence, .bmState, .identify, .stream, .active, .blink, .attempt, .lsol,
      .scanPeriod, .claims, .grants, .polls, .charging, .spuState, .view, .triggers, .causes, .episode, .mode,
      .live, .latched, .history, .link, .queue, .btx, .choices] s (noticeAll old s) := by
  unfold noticeAll
  try dsimp only
  repeat' first
    | with_reducible exact Changes.refl _ _
    | (refine fun (s : State) => ?_; try dsimp only)
    | (simp only [changesTo_eq]
       refine ChangesTo.record rfl ?_ ?_
       rotate_left 1
       (refine ⟨fun p hp => ?_⟩; cases p <;> first | exact absurd (by decide) hp | rfl))
    | split
    | with_reducible refine Changes.step ?_ (noticeLatch_changes _) (by decide)
    | with_reducible refine Changes.step ?_ (noticeBase_changes _) (by decide)
    | with_reducible refine Changes.step ?_ (noticePen_changes _) (by decide)
    | with_reducible refine Changes.trans ?_ (anyOrder_changes (by decide) ?_ ?_ ?_ _)
    | (refine ⟨fun p hp => ?_⟩; cases p <;> first | exact absurd (by decide) hp | rfl)

theorem standingRefusal_changes (s : State) :
    Changes [.blink, .attempt, .link, .queue] s (standingRefusal s) := by
  unfold standingRefusal
  try dsimp only
  repeat' first
    | with_reducible exact Changes.refl _ _
    | (simp only [changesTo_eq]
       refine ChangesTo.record rfl ?_ ?_
       rotate_left 1
       (refine ⟨fun p hp => ?_⟩; cases p <;> first | exact absurd (by decide) hp | rfl))
    | split
    | with_reducible refine Changes.step ?_ (offerResult_changes _ _ _) (by decide)

theorem askConsent_changes (s : State) :
    Changes [.reader, .display, .baseSamples, .late, .baseView, .locks, .forcing, .freshness, .abstain,
      .reported, .hingeBase, .bmState, .stream, .blink, .attempt, .scanPeriod, .spuState, .view, .triggers,
      .causes, .episode, .mode, .live, .link, .queue, .btx, .choices] s (askConsent s) := by
  unfold askConsent
  try dsimp only
  repeat' first
    | with_reducible exact Changes.refl _ _
    | (refine fun (s : State) => ?_; try dsimp only)
    | (simp only [changesTo_eq]
       refine ChangesTo.record rfl ?_ ?_
       rotate_left 1
       (refine ⟨fun p hp => ?_⟩; cases p <;> first | exact absurd (by decide) hp | rfl))
    | split
    | with_reducible refine Changes.trans ?_ (bmReport_changes (by decide) ?_ _)
    | with_reducible refine Changes.step ?_ (compareStream_changes _) (by decide)
    | with_reducible refine Changes.step ?_ (offer_changes _ _) (by decide)
    | with_reducible refine Changes.trans ?_ (raceLc_changes (by decide) ?_ ?_ _)
    | (refine ⟨fun p hp => ?_⟩; cases p <;> first | exact absurd (by decide) hp | rfl)

theorem pressAttached_changes (s : State) :
    Changes [.reader, .display, .baseSamples, .late, .baseView, .locks, .forcing, .freshness, .abstain,
      .reported, .hingeBase, .bmState, .stream, .blink, .attempt, .lsol, .scanPeriod, .claims, .grants, .polls,
      .charging, .spuState, .view, .triggers, .causes, .episode, .mode, .live, .link, .queue, .btx, .choices] s
      (pressAttached s) := by
  unfold pressAttached
  try dsimp only
  repeat' first
    | with_reducible exact Changes.refl _ _
    | (simp only [changesTo_eq]
       refine ChangesTo.record rfl ?_ ?_
       rotate_left 1
       (refine ⟨fun p hp => ?_⟩; cases p <;> first | exact absurd (by decide) hp | rfl))
    | split
    | with_reducible refine Changes.step ?_ (askConsent_changes _) (by decide)
    | with_reducible refine Changes.step ?_ (standingRefusal_changes _) (by decide)
    | with_reducible refine Changes.step ?_ (toReleasing_changes _) (by decide)

theorem pressReleasing_changes (s : State) :
    Changes [.reader, .display, .baseSamples, .late, .baseView, .locks, .forcing, .freshness, .abstain,
      .reported, .hingeBase, .presence, .bmState, .identify, .stream, .active, .blink, .attempt, .lsol,
      .scanPeriod, .claims, .grants, .polls, .charging, .spuState, .view, .triggers, .causes, .episode, .mode,
      .live, .latched, .history, .link, .queue, .btx, .choices] s (pressReleasing s) := by
  unfold pressReleasing
  try dsimp only
  repeat' first
    | with_reducible exact Changes.refl _ _
    | (simp only [changesTo_eq]
       refine ChangesTo.record rfl ?_ ?_
       rotate_left 1
       (refine ⟨fun p hp => ?_⟩; cases p <;> first | exact absurd (by decide) hp | rfl))
    | split
    | with_reducible refine Changes.step ?_ (giveUpLatch_changes _ _) (by decide)
    | with_reducible refine Changes.step ?_ (toClosing_changes _ _) (by decide)

theorem bmPress_changes (s : State) :
    Changes [.reader, .display, .baseSamples, .late, .baseView, .locks, .forcing, .freshness, .abstain,
      .reported, .hingeBase, .presence, .bmState, .identify, .stream, .active, .blink, .attempt, .lsol,
      .scanPeriod, .claims, .grants, .polls, .charging, .spuState, .view, .triggers, .causes, .episode, .mode,
      .live, .latched, .history, .link, .queue, .btx, .choices] s (bmPress s) := by
  unfold bmPress
  try dsimp only
  repeat' first
    | with_reducible exact Changes.refl _ _
    | (simp only [changesTo_eq]
       refine ChangesTo.record rfl ?_ ?_
       rotate_left 1
       (refine ⟨fun p hp => ?_⟩; cases p <;> first | exact absurd (by decide) hp | rfl))
    | split
    | with_reducible refine Changes.step ?_ (pressReleasing_changes _) (by decide)
    | with_reducible refine Changes.step ?_ (pressAttached_changes _) (by decide)
    | with_reducible refine Changes.step ?_ (endAttempt_changes _ _) (by decide)

theorem press_changes (s : State) :
    Changes [.reader, .display, .baseSamples, .late, .baseView, .locks, .forcing, .freshness, .abstain,
      .reported, .hingeBase, .presence, .bmState, .identify, .stream, .active, .blink, .attempt, .lsol,
      .scanPeriod, .claims, .grants, .polls, .charging, .spuState, .view, .triggers, .causes, .episode, .mode,
      .live, .latched, .history, .link, .queue, .btx, .choices] s (press s) := by
  unfold press
  try dsimp only
  repeat' first
    | with_reducible exact Changes.refl _ _
    | (simp only [changesTo_eq]
       refine ChangesTo.record rfl ?_ ?_
       rotate_left 1
       (refine ⟨fun p hp => ?_⟩; cases p <;> first | exact absurd (by decide) hp | rfl))
    | split
    | with_reducible refine Changes.step ?_ (bmPress_changes _) (by decide)
    | with_reducible refine Changes.step ?_ (cause_changes _ _) (by decide)

theorem dbtnChanged_changes (level : Level) (s : State) :
    Changes [.button] s (dbtnChanged level s) := by
  unfold dbtnChanged
  try dsimp only
  repeat' first
    | with_reducible exact Changes.refl _ _
    | (simp only [changesTo_eq]
       refine ChangesTo.record rfl ?_ ?_
       rotate_left 1
       (refine ⟨fun p hp => ?_⟩; cases p <;> first | exact absurd (by decide) hp | rfl))
    | split

theorem buttonHeld_changes (s : State) :
    Changes [.reader, .display, .baseSamples, .late, .baseView, .locks, .forcing, .freshness, .abstain,
      .reported, .hingeBase, .presence, .bmState, .identify, .stream, .active, .button, .blink, .attempt, .lsol,
      .scanPeriod, .claims, .grants, .polls, .charging, .spuState, .view, .triggers, .causes, .episode, .mode,
      .live, .latched, .history, .link, .queue, .btx, .choices] s (buttonHeld s) := by
  unfold buttonHeld
  try dsimp only
  repeat' first
    | with_reducible exact Changes.refl _ _
    | (simp only [changesTo_eq]
       refine ChangesTo.record rfl ?_ ?_
       rotate_left 1
       (refine ⟨fun p hp => ?_⟩; cases p <;> first | exact absurd (by decide) hp | rfl))
    | split
    | with_reducible refine Changes.step ?_ (press_changes _) (by decide)

theorem bmLid_changes (level : Level) (s : State) :
    Changes [.reader, .display, .baseSamples, .late, .baseView, .locks, .forcing, .freshness, .abstain,
      .reported, .hingeBase, .presence, .bmState, .identify, .stream, .active, .blink, .attempt, .scanPeriod,
      .claims, .grants, .polls, .charging, .spuState, .view, .triggers, .causes, .episode, .mode, .live,
      .latched, .history, .link, .queue, .btx, .choices] s (bmLid level s) := by
  unfold bmLid
  try dsimp only
  repeat' first
    | with_reducible exact Changes.refl _ _
    | (simp only [changesTo_eq]
       refine ChangesTo.record rfl ?_ ?_
       rotate_left 1
       (refine ⟨fun p hp => ?_⟩; cases p <;> first | exact absurd (by decide) hp | rfl))
    | split
    | with_reducible refine Changes.step ?_ (endAttempt_changes _ _) (by decide)

theorem consentExpired_changes (s : State) :
    Changes [.reader, .display, .baseSamples, .late, .baseView, .locks, .forcing, .freshness, .abstain,
      .reported, .hingeBase, .presence, .bmState, .identify, .stream, .active, .blink, .attempt, .lsol,
      .scanPeriod, .claims, .grants, .polls, .charging, .spuState, .view, .triggers, .causes, .episode, .mode,
      .live, .latched, .history, .link, .queue, .btx, .choices] s (consentExpired s) := by
  unfold consentExpired
  try dsimp only
  repeat' first
    | with_reducible exact Changes.refl _ _
    | (simp only [changesTo_eq]
       refine ChangesTo.record rfl ?_ ?_
       rotate_left 1
       (refine ⟨fun p hp => ?_⟩; cases p <;> first | exact absurd (by decide) hp | rfl))
    | split
    | with_reducible refine Changes.step ?_ (toReleasing_changes _) (by decide)
    | with_reducible refine Changes.step ?_ (endAttempt_changes _ _) (by decide)

theorem openCheckFailed_changes (s : State) :
    Changes [.reader, .display, .baseSamples, .late, .baseView, .locks, .forcing, .freshness, .abstain,
      .reported, .hingeBase, .presence, .bmState, .identify, .stream, .active, .blink, .attempt, .lsol,
      .scanPeriod, .claims, .grants, .polls, .charging, .spuState, .view, .triggers, .causes, .episode, .mode,
      .live, .latched, .history, .link, .queue, .btx, .choices] s (openCheckFailed s) := by
  unfold openCheckFailed
  try dsimp only
  repeat' first
    | with_reducible exact Changes.refl _ _
    | (simp only [changesTo_eq]
       refine ChangesTo.record rfl ?_ ?_
       rotate_left 1
       (refine ⟨fun p hp => ?_⟩; cases p <;> first | exact absurd (by decide) hp | rfl))
    | split
    | with_reducible refine Changes.step ?_ (endStuck_changes _ _) (by decide)
    | with_reducible refine Changes.step ?_ (withdrawLatch_changes _) (by decide)

theorem closeCheckFailed_changes (s : State) :
    Changes [.reader, .display, .baseSamples, .late, .baseView, .locks, .forcing, .freshness, .abstain,
      .reported, .hingeBase, .presence, .bmState, .identify, .stream, .active, .blink, .attempt, .scanPeriod,
      .claims, .grants, .polls, .charging, .spuState, .view, .triggers, .causes, .episode, .mode, .live,
      .latched, .history, .link, .queue, .btx, .choices] s (closeCheckFailed s) := by
  unfold closeCheckFailed
  try dsimp only
  repeat' first
    | with_reducible exact Changes.refl _ _
    | (simp only [changesTo_eq]
       refine ChangesTo.record rfl ?_ ?_
       rotate_left 1
       (refine ⟨fun p hp => ?_⟩; cases p <;> first | exact absurd (by decide) hp | rfl))
    | split
    | with_reducible refine Changes.step ?_ (endStuck_changes _ _) (by decide)

theorem blinkEnded_changes (s : State) :
    Changes [.blink] s (blinkEnded s) := by
  unfold blinkEnded
  try dsimp only
  repeat' first
    | with_reducible exact Changes.refl _ _
    | (simp only [changesTo_eq]
       refine ChangesTo.record rfl ?_ ?_
       rotate_left 1
       (refine ⟨fun p hp => ?_⟩; cases p <;> first | exact absurd (by decide) hp | rfl))
    | split

theorem lswChanged_changes (pos : LatchPos) (s : State) :
    Changes [.reader, .display, .baseSamples, .late, .baseView, .locks, .forcing, .freshness, .abstain,
      .reported, .hingeBase, .presence, .bmState, .identify, .stream, .active, .blink, .attempt, .lsw,
      .scanPeriod, .claims, .grants, .polls, .charging, .spuState, .view, .triggers, .causes, .episode, .mode,
      .live, .latched, .history, .link, .queue, .btx, .choices] s (lswChanged pos s) := by
  unfold lswChanged
  try dsimp only
  repeat' first
    | with_reducible exact Changes.refl _ _
    | (simp only [changesTo_eq]
       refine ChangesTo.record rfl ?_ ?_
       rotate_left 1
       (refine ⟨fun p hp => ?_⟩; cases p <;> first | exact absurd (by decide) hp | rfl))
    | split
    | with_reducible refine Changes.step ?_ (startWindow_changes _) (by decide)
    | with_reducible refine Changes.step ?_ (endAttempt_changes _ _) (by decide)

theorem baseDetach_changes (s : State) :
    Changes [.reader, .display, .baseSamples, .late, .baseView, .locks, .forcing, .freshness, .abstain,
      .reported, .hingeBase, .presence, .bmState, .identify, .stream, .marks, .active, .attempt, .lsol,
      .scanPeriod, .claims, .grants, .polls, .charging, .spuState, .view, .triggers, .causes, .episode, .mode,
      .live, .link, .queue, .btx, .choices] s (baseDetach s) := by
  have h1 : Changes ([.reader, .display, .baseSamples, .late, .baseView, .locks, .forcing, .freshness, .abstain, .reported, .hingeBase, .presence, .bmState, .identify, .stream, .marks, .active, .attempt, .lsol, .scanPeriod, .claims, .grants, .polls, .charging, .spuState, .view, .triggers, .causes, .episode, .mode, .live, .link, .queue, .btx, .choices]) s (withdrawLatch { s with det := { s.det with lsol := false, timer := none } }) := by
    refine Changes.step ?_ (withdrawLatch_changes _) (by decide)
    refine ⟨fun p hp => ?_⟩; cases p <;> first | exact absurd (by decide) hp | rfl
  unfold baseDetach
  generalize withdrawLatch { s with det := { s.det with lsol := false, timer := none } } = x at h1 ⊢
  have h2 : Changes ([.reader, .display, .baseSamples, .late, .baseView, .locks, .forcing, .freshness, .abstain, .reported, .hingeBase, .presence, .bmState, .identify, .stream, .marks, .active, .attempt, .lsol, .scanPeriod, .claims, .grants, .polls, .charging, .spuState, .view, .triggers, .causes, .episode, .mode, .live, .link, .queue, .btx, .choices]) s (withdrawBase { x with bm := { x.bm with bpwr := false } }) := by
    refine Changes.step (h1.trans ?_) (withdrawBase_changes _) (by decide)
    refine ⟨fun p hp => ?_⟩; cases p <;> first | exact absurd (by decide) hp | rfl
  dsimp only at h2 ⊢
  generalize withdrawBase _ = y at h2 ⊢
  refine Changes.step ?_ (takeAfresh_changes _) (by decide)
  refine Changes.trans ?_ (bmReport_changes (by decide) (fun t => ?_) _)
  · refine h2.trans ?_
    refine ⟨fun p hp => ?_⟩; cases p <;> first | exact absurd (by decide) hp | rfl
  · refine Changes.step ?_ (offer_changes _ _) (by decide)
    exact (offerResult_changes _ _ _).mono (by decide)

theorem baseIsGone_changes (s : State) :
    Changes [.reader, .display, .baseSamples, .late, .baseView, .locks, .forcing, .freshness, .abstain,
      .reported, .hingeBase, .presence, .bmState, .identify, .stream, .marks, .active, .attempt, .lsol,
      .scanPeriod, .claims, .grants, .polls, .charging, .spuState, .view, .triggers, .causes, .episode, .mode,
      .live, .latched, .history, .link, .queue, .btx, .choices] s (baseIsGone s) := by
  unfold baseIsGone; split
  · exact (attachAbandoned_changes _).mono (by decide)
  · exact (attachAbandoned_changes _).mono (by decide)
  · exact (attachAbandoned_changes _).mono (by decide)
  · exact (attachAbandoned_changes _).mono (by decide)
  · exact (baseLoss_changes _).mono (by decide)
  · exact (baseLoss_changes _).mono (by decide)
  · exact (baseDetach_changes _).mono (by decide)
  · exact (baseDetach_changes _).mono (by decide)
  · exact Changes.refl _ _
  · exact Changes.refl _ _

theorem consentAllowed_changes (place : Nat) (s : State) :
    Changes [.reader, .display, .baseSamples, .late, .baseView, .locks, .forcing, .freshness, .abstain,
      .reported, .hingeBase, .bmState, .stream, .blink, .attempt, .lsol, .scanPeriod, .claims, .grants, .polls,
      .charging, .spuState, .view, .triggers, .causes, .episode, .mode, .live, .link, .queue, .btx, .choices] s
      (consentAllowed place s) := by
  unfold consentAllowed
  try dsimp only
  repeat' first
    | with_reducible exact Changes.refl _ _
    | (simp only [changesTo_eq]
       refine ChangesTo.record rfl ?_ ?_
       rotate_left 1
       (refine ⟨fun p hp => ?_⟩; cases p <;> first | exact absurd (by decide) hp | rfl))
    | split
    | with_reducible refine Changes.step ?_ (toReleasing_changes _) (by decide)
    | with_reducible refine Changes.step ?_ (answer_changes _ _ _) (by decide)

theorem serveDetachConsent_changes (place : Nat) (payload : List Byte) (s : State) :
    Changes [.reader, .display, .baseSamples, .late, .baseView, .locks, .forcing, .freshness, .abstain,
      .reported, .hingeBase, .presence, .bmState, .identify, .stream, .active, .blink, .attempt, .lsol,
      .scanPeriod, .claims, .grants, .polls, .charging, .spuState, .view, .triggers, .causes, .episode, .mode,
      .live, .latched, .history, .link, .queue, .btx, .choices] s (serveDetachConsent place payload s) := by
  unfold serveDetachConsent; split
  · split
    · exact (answer_changes _ _ _).mono (by decide)
    · split
      · split
        · exact (consentAllowed_changes _ _).mono (by decide)
        · refine Changes.step ?_ (endAttempt_changes _ _) (by decide)
          exact (answer_changes _ _ _).mono (by decide)
      · exact (answer_changes _ _ _).mono (by decide)
  · exact (answer_changes _ _ _).mono (by decide)

theorem serveRequestDetach_changes (place : Nat) (s : State) :
    Changes [.reader, .display, .baseSamples, .late, .baseView, .locks, .forcing, .freshness, .abstain,
      .reported, .hingeBase, .bmState, .stream, .blink, .attempt, .lsol, .scanPeriod, .claims, .grants, .polls,
      .charging, .spuState, .view, .triggers, .causes, .episode, .mode, .live, .link, .queue, .btx, .choices] s
      (serveRequestDetach place s) := by
  unfold serveRequestDetach
  try dsimp only
  repeat' first
    | with_reducible exact Changes.refl _ _
    | (simp only [changesTo_eq]
       refine ChangesTo.record rfl ?_ ?_
       rotate_left 1
       (refine ⟨fun p hp => ?_⟩; cases p <;> first | exact absurd (by decide) hp | rfl))
    | split
    | with_reducible refine Changes.step ?_ (consentAllowed_changes _ _) (by decide)
    | with_reducible refine Changes.step ?_ (toReleasing_changes _) (by decide)
    | with_reducible refine Changes.step ?_ (answer_changes _ _ _) (by decide)

theorem serveSetDetachPolicy_changes (place : Nat) (payload : List Byte) (s : State) :
    Changes [.detachPolicy, .link, .queue] s (serveSetDetachPolicy place payload s) := by
  unfold serveSetDetachPolicy
  try dsimp only
  repeat' first
    | with_reducible exact Changes.refl _ _
    | (simp only [changesTo_eq]
       refine ChangesTo.record rfl ?_ ?_
       rotate_left 1
       (refine ⟨fun p hp => ?_⟩; cases p <;> first | exact absurd (by decide) hp | rfl))
    | split
    | with_reducible refine Changes.step ?_ (answer_changes _ _ _) (by decide)

end Sys2Proof.Machine
end

