-- ==== Sys2Proof/Laws/FramesSupply.lean ====
section
/-! SUPPORT. What each operation may change, as one lemma per operation: the operations of SM and SFE and the requests of SPU and CM. -/

set_option linter.unusedTactic false
set_option linter.unreachableTactic false

namespace Sys2Proof.Machine

theorem follow_changes (c : Cond) (was isNow : Bool) (detail : Nat) (s : State) :
    Changes [.live, .latched, .history, .link, .queue] s (follow c was isNow detail s) := by
  unfold follow
  try dsimp only
  repeat' first
    | with_reducible exact Changes.refl _ _
    | (simp only [changesTo_eq]
       refine ChangesTo.record rfl ?_ ?_
       rotate_left 1
       (refine ⟨fun p hp => ?_⟩; cases p <;> first | exact absurd (by decide) hp | rfl))
    | split
    | with_reducible refine Changes.step ?_ (fall_changes _ _) (by decide)
    | with_reducible refine Changes.step ?_ (rise_changes _ _ _) (by decide)

theorem reportBands_changes (old : Sm) (vsys : Nat) (temp : Int) (s : State) :
    Changes [.live, .latched, .history, .link, .queue] s (reportBands old vsys temp s) := by
  have hid : ∀ (b : Prop) [Decidable b] (f : State → State) (t : State), Changes ([.live, .latched, .history, .link, .queue]) t (f t) →
      Changes ([.live, .latched, .history, .link, .queue]) t ((if b then f else id) t) := by
    intro b _ f t h; split
    · exact h
    · exact Changes.refl _ _
  have hf : ∀ (c : Cond) (a b : Bool) (d : Nat) (t : State), Changes ([.live, .latched, .history, .link, .queue]) t (follow c a b d t) :=
    fun c a b d t => (follow_changes c a b d t).mono (by decide)
  unfold reportBands
  exact (((hid _ _ _ (hf _ _ _ _ _)).trans (hf _ _ _ _ _)).trans (hid _ _ _ (hf _ _ _ _ _))).trans (hf _ _ _ _ _)

theorem spuSupply_changes (s : State) :
    Changes [.spuState, .triggers, .link, .queue] s (spuSupply s) := by
  unfold spuSupply
  try dsimp only
  repeat' first
    | with_reducible exact Changes.refl _ _
    | (simp only [changesTo_eq]
       refine ChangesTo.record rfl ?_ ?_
       rotate_left 1
       (refine ⟨fun p hp => ?_⟩; cases p <;> first | exact absurd (by decide) hp | rfl))
    | split
    | with_reducible refine Changes.step ?_ (evalTrigger_changes _ _) (by decide)

theorem handBands_changes (old : Sm) (vsys : Nat) (temp : Int) (s : State) :
    Changes [.reader, .display, .baseSamples, .late, .baseView, .locks, .freshness, .reported, .stream,
      .scanPeriod, .penClaim, .grants, .polls, .charging, .spuState, .view, .triggers, .causes, .episode, .mode,
      .live, .latched, .history, .link, .queue, .btx, .choices] s (handBands old vsys temp s) := by
  unfold handBands
  try dsimp only
  repeat' first
    | with_reducible exact Changes.refl _ _
    | (refine fun (s : State) => ?_; try dsimp only)
    | (simp only [changesTo_eq]
       refine ChangesTo.record rfl ?_ ?_
       rotate_left 1
       (refine ⟨fun p hp => ?_⟩; cases p <;> first | exact absurd (by decide) hp | rfl))
    | split
    | with_reducible refine Changes.step ?_ (spuSupply_changes _) (by decide)
    | with_reducible refine Changes.step ?_ (reportBands_changes _ _ _ _) (by decide)
    | with_reducible refine Changes.step ?_ (pdcSupply_changes _) (by decide)
    | with_reducible refine Changes.trans ?_ (anyOrder_changes (by decide) ?_ ?_ ?_ _)
    | (refine ⟨fun p hp => ?_⟩; cases p <;> first | exact absurd (by decide) hp | rfl)

theorem handCapacity_changes (s : State) :
    Changes [.reader, .display, .baseSamples, .late, .baseView, .locks, .forcing, .freshness, .abstain,
      .reported, .hingeBase, .presence, .bmState, .identify, .stream, .active, .blink, .attempt, .lsol,
      .scanPeriod, .capacity, .claims, .grants, .polls, .charging, .spuState, .view, .triggers, .causes,
      .episode, .mode, .live, .latched, .history, .link, .queue, .btx, .choices] s (handCapacity s) := by
  unfold handCapacity
  try dsimp only
  repeat' first
    | with_reducible exact Changes.refl _ _
    | (simp only [changesTo_eq]
       refine ChangesTo.record rfl ?_ ?_
       rotate_left 1
       (refine ⟨fun p hp => ?_⟩; cases p <;> first | exact absurd (by decide) hp | rfl))
    | split
    | with_reducible refine Changes.step ?_ (noticeAll_changes _ _) (by decide)

theorem offerSupply_changes (s : State) :
    Changes [.link, .queue] s (offerSupply s) := by
  unfold offerSupply
  try dsimp only
  repeat' first
    | with_reducible exact Changes.refl _ _
    | (simp only [changesTo_eq]
       refine ChangesTo.record rfl ?_ ?_
       rotate_left 1
       (refine ⟨fun p hp => ?_⟩; cases p <;> first | exact absurd (by decide) hp | rfl))
    | split
    | with_reducible refine Changes.step ?_ (offer_changes _ _) (by decide)

theorem handOn_changes (old : Sm) (vsys : Nat) (temp : Int) (s : State) :
    Changes [.reader, .display, .baseSamples, .late, .baseView, .locks, .forcing, .freshness, .abstain,
      .reported, .hingeBase, .presence, .bmState, .identify, .stream, .active, .blink, .attempt, .lsol,
      .scanPeriod, .capacity, .claims, .penClaim, .grants, .polls, .charging, .spuState, .view, .triggers,
      .causes, .episode, .mode, .live, .latched, .history, .link, .queue, .btx, .choices] s (handOn old vsys
      temp s) := by
  unfold handOn
  try dsimp only
  repeat' first
    | with_reducible exact Changes.refl _ _
    | (simp only [changesTo_eq]
       refine ChangesTo.record rfl ?_ ?_
       rotate_left 1
       (refine ⟨fun p hp => ?_⟩; cases p <;> first | exact absurd (by decide) hp | rfl))
    | split
    | with_reducible refine Changes.step ?_ (offerSupply_changes _) (by decide)
    | with_reducible refine Changes.step ?_ (handCapacity_changes _) (by decide)
    | with_reducible refine Changes.step ?_ (handBands_changes _ _ _ _) (by decide)

theorem scanDue_changes (s : State) :
    Changes [.scanner, .scanPeriod] s (scanDue s) := by
  unfold scanDue
  try dsimp only
  repeat' first
    | with_reducible exact Changes.refl _ _
    | (simp only [changesTo_eq]
       refine ChangesTo.record rfl ?_ ?_
       rotate_left 1
       (refine ⟨fun p hp => ?_⟩; cases p <;> first | exact absurd (by decide) hp | rfl))
    | split

theorem scanCompleted_changes (vsys : Nat) (temp : Int) (pen : Nat) (s : State) :
    Changes [.reader, .display, .baseSamples, .late, .baseView, .locks, .forcing, .freshness, .abstain,
      .reported, .hingeBase, .presence, .bmState, .identify, .stream, .active, .blink, .attempt, .lsol,
      .scanner, .scanPeriod, .readings, .bands, .capacity, .claims, .penClaim, .grants, .polls, .charging,
      .spuState, .view, .triggers, .causes, .episode, .mode, .live, .latched, .history, .link, .queue, .btx,
      .choices] s (scanCompleted vsys temp pen s) := by
  unfold scanCompleted
  try dsimp only
  repeat' first
    | with_reducible exact Changes.refl _ _
    | (simp only [changesTo_eq]
       refine ChangesTo.record rfl ?_ ?_
       rotate_left 1
       (refine ⟨fun p hp => ?_⟩; cases p <;> first | exact absurd (by decide) hp | rfl))
    | split
    | with_reducible refine Changes.step ?_ (handOn_changes _ _ _ _) (by decide)
    | with_reducible refine Changes.step ?_ (penReading_changes _ _) (by decide)

theorem serveGetSupply_changes (place : Nat) (s : State) :
    Changes [.link, .queue] s (serveGetSupply place s) := by
  unfold serveGetSupply
  try dsimp only
  repeat' first
    | with_reducible exact Changes.refl _ _
    | (simp only [changesTo_eq]
       refine ChangesTo.record rfl ?_ ?_
       rotate_left 1
       (refine ⟨fun p hp => ?_⟩; cases p <;> first | exact absurd (by decide) hp | rfl))
    | split
    | with_reducible refine Changes.step ?_ (answer_changes _ _ _) (by decide)

theorem readDue_changes (s : State) :
    Changes [.reader] s (readDue s) := by
  unfold readDue
  try dsimp only
  repeat' first
    | with_reducible exact Changes.refl _ _
    | (simp only [changesTo_eq]
       refine ChangesTo.record rfl ?_ ?_
       rotate_left 1
       (refine ⟨fun p hp => ?_⟩; cases p <;> first | exact absurd (by decide) hp | rfl))
    | split
    | with_reducible refine Changes.step ?_ (restartPeriod_changes _) (by decide)

theorem dropRead_changes (s : State) :
    Changes [.reader] s (dropRead s) := by
  unfold dropRead
  try dsimp only
  repeat' first
    | with_reducible exact Changes.refl _ _
    | (simp only [changesTo_eq]
       refine ChangesTo.record rfl ?_ ?_
       rotate_left 1
       (refine ⟨fun p hp => ?_⟩; cases p <;> first | exact absurd (by decide) hp | rfl))
    | split

theorem sensorFault_changes (code : Nat) (s : State) :
    Changes [.reader, .display, .baseSamples, .late, .baseView, .locks, .halt, .freshness, .reported, .stream,
      .scanPeriod, .spuState, .view, .triggers, .causes, .episode, .mode, .live, .latched, .history, .link,
      .queue, .btx, .choices] s (sensorFault code s) := by
  unfold sensorFault
  try dsimp only
  repeat' first
    | with_reducible exact Changes.refl _ _
    | (refine fun (s : State) => ?_; try dsimp only)
    | (simp only [changesTo_eq]
       refine ChangesTo.record rfl ?_ ?_
       rotate_left 1
       (refine ⟨fun p hp => ?_⟩; cases p <;> first | exact absurd (by decide) hp | rfl))
    | split
    | with_reducible refine Changes.step ?_ (peHalt_changes _) (by decide)
    | with_reducible refine Changes.step ?_ (restartPeriod_changes _) (by decide)
    | with_reducible refine Changes.step ?_ (rise_changes _ _ _) (by decide)
    | with_reducible refine Changes.trans ?_ (eitherOrder_changes (by decide) ?_ ?_ _)
    | (refine ⟨fun p hp => ?_⟩; cases p <;> first | exact absurd (by decide) hp | rfl)

theorem readFailed_changes (code : Nat) (s : State) :
    Changes [.reader, .display, .baseSamples, .late, .baseView, .locks, .halt, .freshness, .reported, .stream,
      .scanPeriod, .spuState, .view, .triggers, .causes, .episode, .mode, .live, .latched, .history, .link,
      .queue, .btx, .choices] s (readFailed code s) := by
  unfold readFailed
  try dsimp only
  repeat' first
    | with_reducible exact Changes.refl _ _
    | (simp only [changesTo_eq]
       refine ChangesTo.record rfl ?_ ?_
       rotate_left 1
       (refine ⟨fun p hp => ?_⟩; cases p <;> first | exact absurd (by decide) hp | rfl))
    | split
    | with_reducible refine Changes.step ?_ (sensorFault_changes _ _) (by decide)
    | with_reducible refine Changes.step ?_ (dropRead_changes _) (by decide)

theorem recover_changes (s : State) :
    Changes [.reader, .display, .locks, .halt, .freshness, .reported, .spuState, .view, .triggers, .live, .link,
      .queue, .choices] s (recover s) := by
  unfold recover
  try dsimp only
  repeat' first
    | with_reducible exact Changes.refl _ _
    | (simp only [changesTo_eq]
       refine ChangesTo.record rfl ?_ ?_
       rotate_left 1
       (refine ⟨fun p hp => ?_⟩; cases p <;> first | exact absurd (by decide) hp | rfl))
    | split
    | with_reducible refine Changes.step ?_ (restartPeriod_changes _) (by decide)
    | with_reducible refine Changes.step ?_ (breakRecovery_changes _) (by decide)
    | with_reducible refine Changes.step ?_ (fall_changes _ _) (by decide)

theorem judge_changes (s : State) :
    Changes [.baseSamples, .late, .live, .latched, .history, .link, .queue] s (judge s) := by
  unfold judge
  try dsimp only
  repeat' first
    | with_reducible exact Changes.refl _ _
    | (simp only [changesTo_eq]
       refine ChangesTo.record rfl ?_ ?_
       rotate_left 1
       (refine ⟨fun p hp => ?_⟩; cases p <;> first | exact absurd (by decide) hp | rfl))
    | split
    | with_reducible refine Changes.step ?_ (rise_changes _ _ _) (by decide)

theorem takeBaseSample_changes (v : Vec3) (s : State) :
    Changes [.baseSamples, .late, .locks, .freshness, .reported, .spuState, .view, .triggers, .live, .link,
      .queue, .choices] s (takeBaseSample v s) := by
  unfold takeBaseSample
  try dsimp only
  repeat' first
    | with_reducible exact Changes.refl _ _
    | (simp only [changesTo_eq]
       refine ChangesTo.record rfl ?_ ?_
       rotate_left 1
       (refine ⟨fun p hp => ?_⟩; cases p <;> first | exact absurd (by decide) hp | rfl))
    | split
    | with_reducible refine Changes.step ?_ (breakBase_changes _) (by decide)
    | with_reducible refine Changes.step ?_ (fall_changes _ _) (by decide)

theorem baseSampleArrived_changes (v : Vec3) (s : State) :
    Changes [.baseSamples, .late, .locks, .freshness, .reported, .spuState, .view, .triggers, .live, .link,
      .queue, .choices] s (baseSampleArrived v s) := by
  unfold baseSampleArrived
  try dsimp only
  repeat' first
    | with_reducible exact Changes.refl _ _
    | (simp only [changesTo_eq]
       refine ChangesTo.record rfl ?_ ?_
       rotate_left 1
       (refine ⟨fun p hp => ?_⟩; cases p <;> first | exact absurd (by decide) hp | rfl))
    | split
    | with_reducible refine Changes.step ?_ (takeBaseSample_changes _ _) (by decide)

theorem recordDisplay_changes (v : Vec3) (s : State) :
    Changes [.display] s (recordDisplay v s) := by
  unfold recordDisplay
  try dsimp only
  repeat' first
    | with_reducible exact Changes.refl _ _
    | (simp only [changesTo_eq]
       refine ChangesTo.record rfl ?_ ?_
       rotate_left 1
       (refine ⟨fun p hp => ?_⟩; cases p <;> first | exact absurd (by decide) hp | rfl))
    | split

theorem advanceDivider_changes (s : State) :
    Changes [.divider, .link, .queue] s (advanceDivider s) := by
  unfold advanceDivider
  try dsimp only
  repeat' first
    | with_reducible exact Changes.refl _ _
    | (simp only [changesTo_eq]
       refine ChangesTo.record rfl ?_ ?_
       rotate_left 1
       (refine ⟨fun p hp => ?_⟩; cases p <;> first | exact absurd (by decide) hp | rfl))
    | split
    | with_reducible refine Changes.step ?_ (offer_changes _ _) (by decide)

theorem processSample_changes (v : Vec3) (s : State) :
    Changes [.reader, .display, .baseSamples, .late, .baseView, .divider, .locks, .freshness, .abstain,
      .reported, .hinge, .stream, .scanPeriod, .spuState, .view, .triggers, .causes, .episode, .mode, .live,
      .latched, .history, .link, .queue, .btx, .choices] s (processSample v s) := by
  unfold processSample
  try dsimp only
  repeat' first
    | with_reducible exact Changes.refl _ _
    | (simp only [changesTo_eq]
       refine ChangesTo.record rfl ?_ ?_
       rotate_left 1
       (refine ⟨fun p hp => ?_⟩; cases p <;> first | exact absurd (by decide) hp | rfl))
    | split
    | with_reducible refine Changes.step ?_ (advanceDivider_changes _) (by decide)
    | with_reducible refine Changes.step ?_ (recordDisplay_changes _ _) (by decide)
    | with_reducible refine Changes.step ?_ (judge_changes _) (by decide)
    | with_reducible refine Changes.step ?_ (sampleNotice_changes _ _) (by decide)

theorem readSampled_changes (v : Vec3) (s : State) :
    Changes [.reader, .display, .baseSamples, .late, .baseView, .divider, .locks, .halt, .freshness, .abstain,
      .reported, .hinge, .stream, .scanPeriod, .spuState, .view, .triggers, .causes, .episode, .mode, .live,
      .latched, .history, .link, .queue, .btx, .choices] s (readSampled v s) := by
  unfold readSampled
  try dsimp only
  repeat' first
    | with_reducible exact Changes.refl _ _
    | (simp only [changesTo_eq]
       refine ChangesTo.record rfl ?_ ?_
       rotate_left 1
       (refine ⟨fun p hp => ?_⟩; cases p <;> first | exact absurd (by decide) hp | rfl))
    | split
    | with_reducible refine Changes.step ?_ (processSample_changes _ _) (by decide)
    | with_reducible refine Changes.step ?_ (recover_changes _) (by decide)
    | with_reducible refine Changes.step ?_ (dropRead_changes _) (by decide)

theorem serveGetVectors_changes (place : Nat) (s : State) :
    Changes [.link, .queue] s (serveGetVectors place s) := by
  unfold serveGetVectors
  try dsimp only
  repeat' first
    | with_reducible exact Changes.refl _ _
    | (simp only [changesTo_eq]
       refine ChangesTo.record rfl ?_ ?_
       rotate_left 1
       (refine ⟨fun p hp => ?_⟩; cases p <;> first | exact absurd (by decide) hp | rfl))
    | split
    | with_reducible refine Changes.step ?_ (answer_changes _ _ _) (by decide)

theorem magnetChanged_changes (m : Magnet) (level : Level) (s : State) :
    Changes [.magnets] s (magnetChanged m level s) := by
  refine ⟨fun p hp => ?_⟩; cases m <;> cases p <;> first | exact absurd (by decide) hp | rfl

theorem lidReported_changes (level : Level) (s : State) :
    Changes [.reader, .display, .baseSamples, .late, .baseView, .locks, .forcing, .freshness, .abstain,
      .reported, .hingeBase, .presence, .bmState, .identify, .stream, .active, .blink, .attempt, .scanPeriod,
      .claims, .grants, .polls, .charging, .spuState, .view, .triggers, .causes, .lidConfirm, .episode, .mode,
      .live, .latched, .history, .link, .queue, .btx, .choices] s (lidReported level s) := by
  unfold lidReported
  try dsimp only
  repeat' first
    | with_reducible exact Changes.refl _ _
    | (refine fun (s : State) => ?_; try dsimp only)
    | (simp only [changesTo_eq]
       refine ChangesTo.record rfl ?_ ?_
       rotate_left 1
       (refine ⟨fun p hp => ?_⟩; cases p <;> first | exact absurd (by decide) hp | rfl))
    | split
    | with_reducible refine Changes.step ?_ (bmLid_changes _ _) (by decide)
    | with_reducible refine Changes.step ?_ (peForcing_changes _) (by decide)
    | with_reducible refine Changes.step ?_ (spuLid_changes _ _) (by decide)
    | with_reducible refine Changes.trans ?_ (anyOrder_changes (by decide) ?_ ?_ ?_ _)
    | with_reducible refine Changes.trans ?_ (eitherOrder_changes (by decide) ?_ ?_ _)
    | (refine ⟨fun p hp => ?_⟩; cases p <;> first | exact absurd (by decide) hp | rfl)

theorem magnetHeld_changes (m : Magnet) (s : State) :
    Changes [.reader, .display, .baseSamples, .late, .baseView, .magnets, .locks, .forcing, .freshness,
      .abstain, .reported, .hingeBase, .presence, .bmState, .identify, .stream, .active, .blink, .attempt,
      .scanPeriod, .claims, .grants, .polls, .charging, .spuState, .view, .triggers, .causes, .lidConfirm,
      .episode, .mode, .live, .latched, .history, .link, .queue, .btx, .choices] s (magnetHeld m s) := by
  unfold magnetHeld
  try dsimp only
  repeat' first
    | with_reducible exact Changes.refl _ _
    | (simp only [changesTo_eq]
       refine ChangesTo.record rfl ?_ ?_
       rotate_left 1
       (refine ⟨fun p hp => ?_⟩; cases p <;> first | exact absurd (by decide) hp | rfl))
    | split
    | with_reducible refine Changes.step ?_ (lidReported_changes _ _) (by decide)
    | with_reducible refine Changes.step ?_ (breakBoth_changes _) (by decide)

theorem offerIf_changes (e : Option Event) (s : State) :
    Changes [.link, .queue] s (offerIf e s) := by
  unfold offerIf
  try dsimp only
  repeat' first
    | with_reducible exact Changes.refl _ _
    | (simp only [changesTo_eq]
       refine ChangesTo.record rfl ?_ ?_
       rotate_left 1
       (refine ⟨fun p hp => ?_⟩; cases p <;> first | exact absurd (by decide) hp | rfl))
    | split
    | with_reducible refine Changes.step ?_ (offer_changes _ _) (by decide)

theorem takeHostState_changes (place : Nat) (v : HostView) (s : State) :
    Changes [.reader, .display, .baseSamples, .late, .baseView, .locks, .freshness, .reported, .stream,
      .scanPeriod, .host, .spuState, .view, .triggers, .causes, .lidConfirm, .episode, .mode, .live, .link,
      .queue, .btx, .choices] s (takeHostState place v s) := by
  unfold takeHostState
  try dsimp only
  repeat' first
    | with_reducible exact Changes.refl _ _
    | (simp only [changesTo_eq]
       refine ChangesTo.record rfl ?_ ?_
       rotate_left 1
       (refine ⟨fun p hp => ?_⟩; cases p <;> first | exact absurd (by decide) hp | rfl))
    | split
    | with_reducible refine Changes.step ?_ (offerIf_changes _ _) (by decide)
    | with_reducible refine Changes.step ?_ (chooseMode_changes _) (by decide)
    | with_reducible refine Changes.step ?_ (answer_changes _ _ _) (by decide)

theorem serveHostState_changes (place : Nat) (payload : List Byte) (s : State) :
    Changes [.reader, .display, .baseSamples, .late, .baseView, .locks, .freshness, .reported, .stream,
      .scanPeriod, .host, .spuState, .view, .triggers, .causes, .lidConfirm, .episode, .mode, .live, .link,
      .queue, .btx, .choices] s (serveHostState place payload s) := by
  unfold serveHostState
  try dsimp only
  repeat' first
    | with_reducible exact Changes.refl _ _
    | (simp only [changesTo_eq]
       refine ChangesTo.record rfl ?_ ?_
       rotate_left 1
       (refine ⟨fun p hp => ?_⟩; cases p <;> first | exact absurd (by decide) hp | rfl))
    | split
    | with_reducible refine Changes.step ?_ (takeHostState_changes _ _ _) (by decide)
    | with_reducible refine Changes.step ?_ (answer_changes _ _ _) (by decide)

theorem serveGetSleep_changes (place : Nat) (s : State) :
    Changes [.link, .queue] s (serveGetSleep place s) := by
  unfold serveGetSleep
  try dsimp only
  repeat' first
    | with_reducible exact Changes.refl _ _
    | (simp only [changesTo_eq]
       refine ChangesTo.record rfl ?_ ?_
       rotate_left 1
       (refine ⟨fun p hp => ?_⟩; cases p <;> first | exact absurd (by decide) hp | rfl))
    | split
    | with_reducible refine Changes.step ?_ (answer_changes _ _ _) (by decide)

theorem reEnable_changes (old : SleepPolicy) (t : Trigger) (s : State) :
    Changes [.spuState, .triggers, .link, .queue] s (reEnable old t s) := by
  unfold reEnable
  try dsimp only
  repeat' first
    | with_reducible exact Changes.refl _ _
    | (simp only [changesTo_eq]
       refine ChangesTo.record rfl ?_ ?_
       rotate_left 1
       (refine ⟨fun p hp => ?_⟩; cases p <;> first | exact absurd (by decide) hp | rfl))
    | split
    | with_reducible refine Changes.step ?_ (evalTrigger_changes _ _) (by decide)

theorem replaceSleep_changes (p : SleepPolicy) (s : State) :
    Changes [.sleepPolicy, .reader, .display, .baseSamples, .late, .baseView, .locks, .freshness, .reported,
      .stream, .scanPeriod, .spuState, .view, .triggers, .mode, .live, .link, .queue, .btx, .choices] s
      (replaceSleep p s) := by
  unfold replaceSleep
  try dsimp only
  repeat' first
    | with_reducible exact Changes.refl _ _
    | (refine fun (s : State) => ?_; try dsimp only)
    | (simp only [changesTo_eq]
       refine ChangesTo.record rfl ?_ ?_
       rotate_left 1
       (refine ⟨fun p hp => ?_⟩; cases p <;> first | exact absurd (by decide) hp | rfl))
    | split
    | with_reducible refine Changes.step ?_ (reEnable_changes _ _ _) (by decide)
    | with_reducible refine Changes.step ?_ (chooseMode_changes _) (by decide)
    | with_reducible refine Changes.trans ?_ (anyOrder_changes (by decide) ?_ ?_ ?_ _)
    | (refine ⟨fun p hp => ?_⟩; cases p <;> first | exact absurd (by decide) hp | rfl)

theorem serveSetSleepPolicy_changes (place : Nat) (payload : List Byte) (s : State) :
    Changes [.sleepPolicy, .reader, .display, .baseSamples, .late, .baseView, .locks, .freshness, .reported,
      .stream, .scanPeriod, .spuState, .view, .triggers, .mode, .live, .link, .queue, .btx, .choices] s
      (serveSetSleepPolicy place payload s) := by
  unfold serveSetSleepPolicy; split
  · exact (answer_changes _ _ _).mono (by decide)
  · exact raceLc_changes (by decide) (fun t => (answer_changes _ _ t).mono (by decide))
      (fun t => (replaceSleep_changes _ t).mono (by decide)) s

theorem replaceWake_changes (t : WakeTable) (s : State) :
    Changes [.wakeTable, .reader, .display, .baseSamples, .late, .baseView, .locks, .freshness, .reported,
      .stream, .scanPeriod, .spuState, .view, .triggers, .mode, .live, .link, .queue, .btx, .choices] s
      (replaceWake t s) := by
  unfold replaceWake
  try dsimp only
  repeat' first
    | with_reducible exact Changes.refl _ _
    | (simp only [changesTo_eq]
       refine ChangesTo.record rfl ?_ ?_
       rotate_left 1
       (refine ⟨fun p hp => ?_⟩; cases p <;> first | exact absurd (by decide) hp | rfl))
    | split
    | with_reducible refine Changes.step ?_ (chooseMode_changes _) (by decide)

theorem serveSetWakeCauses_changes (place : Nat) (payload : List Byte) (s : State) :
    Changes [.wakeTable, .reader, .display, .baseSamples, .late, .baseView, .locks, .freshness, .reported,
      .stream, .scanPeriod, .spuState, .view, .triggers, .mode, .live, .link, .queue, .btx, .choices] s
      (serveSetWakeCauses place payload s) := by
  unfold serveSetWakeCauses
  try dsimp only
  repeat' first
    | with_reducible exact Changes.refl _ _
    | (refine fun (s : State) => ?_; try dsimp only)
    | (simp only [changesTo_eq]
       refine ChangesTo.record rfl ?_ ?_
       rotate_left 1
       (refine ⟨fun p hp => ?_⟩; cases p <;> first | exact absurd (by decide) hp | rfl))
    | split
    | with_reducible refine Changes.step ?_ (replaceWake_changes _ _) (by decide)
    | with_reducible refine Changes.step ?_ (answer_changes _ _ _) (by decide)
    | with_reducible refine Changes.trans ?_ (raceLc_changes (by decide) ?_ ?_ _)
    | (refine ⟨fun p hp => ?_⟩; cases p <;> first | exact absurd (by decide) hp | rfl)

theorem serveClearConditions_changes (place : Nat) (payload : List Byte) (s : State) :
    Changes [.latched, .history, .link, .queue] s (serveClearConditions place payload s) := by
  unfold serveClearConditions
  try dsimp only
  repeat' first
    | with_reducible exact Changes.refl _ _
    | (simp only [changesTo_eq]
       refine ChangesTo.record rfl ?_ ?_
       rotate_left 1
       (refine ⟨fun p hp => ?_⟩; cases p <;> first | exact absurd (by decide) hp | rfl))
    | split
    | with_reducible refine Changes.step ?_ (answer_changes _ _ _) (by decide)

theorem serveGetConditions_changes (place : Nat) (s : State) :
    Changes [.link, .queue] s (serveGetConditions place s) := by
  unfold serveGetConditions
  try dsimp only
  repeat' first
    | with_reducible exact Changes.refl _ _
    | (simp only [changesTo_eq]
       refine ChangesTo.record rfl ?_ ?_
       rotate_left 1
       (refine ⟨fun p hp => ?_⟩; cases p <;> first | exact absurd (by decide) hp | rfl))
    | split
    | with_reducible refine Changes.step ?_ (answer_changes _ _ _) (by decide)

theorem serveGetHistory_changes (place : Nat) (payload : List Byte) (s : State) :
    Changes [.link, .queue] s (serveGetHistory place payload s) := by
  unfold serveGetHistory
  try dsimp only
  repeat' first
    | with_reducible exact Changes.refl _ _
    | (simp only [changesTo_eq]
       refine ChangesTo.record rfl ?_ ?_
       rotate_left 1
       (refine ⟨fun p hp => ?_⟩; cases p <;> first | exact absurd (by decide) hp | rfl))
    | split
    | with_reducible refine Changes.step ?_ (answer_changes _ _ _) (by decide)

theorem tickUptime_changes (s : State) :
    Changes [.second, .uptime] s (tickUptime s) := by
  unfold tickUptime
  try dsimp only
  repeat' first
    | with_reducible exact Changes.refl _ _
    | (simp only [changesTo_eq]
       refine ChangesTo.record rfl ?_ ?_
       rotate_left 1
       (refine ⟨fun p hp => ?_⟩; cases p <;> first | exact absurd (by decide) hp | rfl))
    | split

theorem restoreSleep_changes (s : State) :
    Changes [.sleepPolicy, .wakeTable, .reader, .display, .baseSamples, .late, .baseView, .locks, .freshness,
      .reported, .stream, .scanPeriod, .spuState, .view, .triggers, .mode, .live, .link, .queue, .btx, .choices]
      s (restoreSleep s) := by
  exact Changes.step ((replaceSleep_changes _ s).mono (by decide)) (replaceWake_changes _ _) (by decide)

theorem restoreOwners_changes (s : State) :
    Changes [.tuning, .sleepPolicy, .wakeTable, .penSettings, .reader, .display, .baseSamples, .late, .baseView,
      .divider, .locks, .freshness, .reported, .stream, .scanPeriod, .penClaim, .grants, .polls, .charging,
      .spuState, .view, .triggers, .causes, .episode, .mode, .live, .latched, .history, .link, .queue, .btx,
      .choices] s (restoreOwners s) := by
  unfold restoreOwners; dsimp only; split
  · exact anyOrder_changes (by decide) (fun t => (replaceTuning_changes _ t).mono (by decide))
      (fun t => (restoreSleep_changes t).mono (by decide)) (fun t => (replacePen_changes _ t).mono (by decide)) s
  · refine Changes.step ?_ (replacePen_changes _ _) (by decide)
    refine Changes.step ?_ (restoreSleep_changes _) (by decide)
    exact (replaceTuning_changes _ _).mono (by decide)

theorem restorePolicies_changes (s : State) :
    Changes [.detachPolicy, .basePolicy] s (restorePolicies s) := by
  unfold restorePolicies
  try dsimp only
  repeat' first
    | with_reducible exact Changes.refl _ _
    | (simp only [changesTo_eq]
       refine ChangesTo.record rfl ?_ ?_
       rotate_left 1
       (refine ⟨fun p hp => ?_⟩; cases p <;> first | exact absurd (by decide) hp | rfl))
    | split

theorem serveRestoreDefaults_changes (place : Nat) (s : State) :
    Changes [.tuning, .sleepPolicy, .wakeTable, .detachPolicy, .basePolicy, .penSettings, .reader, .display,
      .baseSamples, .late, .baseView, .divider, .locks, .freshness, .reported, .stream, .scanPeriod, .penClaim,
      .grants, .polls, .charging, .spuState, .view, .triggers, .causes, .episode, .mode, .live, .latched,
      .history, .link, .queue, .image, .commit, .btx, .choices] s (serveRestoreDefaults place s) := by
  unfold serveRestoreDefaults
  refine Changes.step ?_ (answer_changes _ _ _) (by decide)
  refine Changes.step ?_ (requestCommit_changes _) (by decide)
  refine Changes.step ?_ (restorePolicies_changes _) (by decide)
  exact (restoreOwners_changes s).mono (by decide)

end Sys2Proof.Machine
end

