-- ==== Sys2Proof/Laws/FramesCommands.lean ====
section
/-! SUPPORT. What each operation may change, as one lemma per operation: the start of the blocks and the operations of LC. -/

set_option linter.unusedTactic false
set_option linter.unreachableTactic false

namespace Sys2Proof.Machine

theorem startBlocks_changes (corrupt : Option Nat) (s : State) :
    Changes [.reader, .display, .baseSamples, .late, .baseView, .locks, .forcing, .freshness, .abstain,
      .reported, .stream, .scanPeriod, .spuState, .view, .triggers, .causes, .episode, .mode, .live, .latched,
      .history, .link, .queue, .btx, .choices] s (startBlocks corrupt s) := by
  unfold startBlocks; split
  · exact (peForcing_changes _).mono (by decide)
  · exact eitherOrder_changes (by decide) (fun t => (rise_changes _ _ t).mono (by decide)) (fun t => (peForcing_changes t).mono (by decide)) s

/-- A reset keeps the nonvolatile image and the pins' levels; the queue is the model's own. -/
theorem blank_changes (s : State) :
    Changes [.now, .second, .reset, .tuning, .sleepPolicy, .wakeTable, .detachPolicy, .basePolicy, .penSettings,
      .table, .reader, .display, .baseSamples, .late, .baseView, .magnets, .divider, .locks, .forcing, .halt,
      .freshness, .abstain, .reported, .rotation, .hinge, .hingeBase, .presence, .bmState, .identify, .stream,
      .marks, .active, .button, .blink, .attempt, .lsol, .scanner, .scanPeriod, .readings, .bands, .capacity,
      .claims, .penClaim, .grants, .garage, .polls, .charging, .penLast, .host, .spuState, .view, .triggers,
      .causes, .lidConfirm, .episode, .mode, .live, .latched, .history, .cause, .uptime, .assembler, .link,
      .grant, .queue, .gate, .commit, .btx, .queries, .choices] s (blank s) := by
  refine ⟨fun p hp => ?_⟩; cases p <;> first | exact absurd (by decide) hp | rfl

theorem endReset_changes (kind : ResetKind) (s : State) :
    Changes [.now, .second, .reset, .tuning, .sleepPolicy, .wakeTable, .detachPolicy, .basePolicy, .penSettings,
      .table, .reader, .display, .baseSamples, .late, .baseView, .magnets, .divider, .locks, .forcing, .halt,
      .freshness, .abstain, .reported, .rotation, .hinge, .hingeBase, .presence, .bmState, .identify, .stream,
      .marks, .active, .button, .blink, .attempt, .lsol, .scanner, .scanPeriod, .readings, .bands, .capacity,
      .claims, .penClaim, .grants, .garage, .polls, .charging, .penLast, .host, .spuState, .view, .triggers,
      .causes, .lidConfirm, .episode, .mode, .live, .latched, .history, .cause, .uptime, .assembler, .link,
      .grant, .queue, .gate, .commit, .btx, .queries, .choices] s (endReset kind s) := by
  unfold endReset
  refine Changes.step ?_ (startBlocks_changes _ _) (by decide)
  refine ⟨fun p hp => ?_⟩; cases p <;> first | exact absurd (by decide) hp | rfl

theorem holdReset_changes (kind : ResetKind) (s : State) :
    Changes [.now, .second, .reset, .tuning, .sleepPolicy, .wakeTable, .detachPolicy, .basePolicy, .penSettings,
      .table, .reader, .display, .baseSamples, .late, .baseView, .magnets, .divider, .locks, .forcing, .halt,
      .freshness, .abstain, .reported, .rotation, .hinge, .hingeBase, .presence, .bmState, .identify, .stream,
      .marks, .active, .button, .blink, .attempt, .lsol, .scanner, .scanPeriod, .readings, .bands, .capacity,
      .claims, .penClaim, .grants, .garage, .polls, .charging, .penLast, .host, .spuState, .view, .triggers,
      .causes, .lidConfirm, .episode, .mode, .live, .latched, .history, .cause, .uptime, .assembler, .link,
      .grant, .queue, .gate, .commit, .btx, .queries, .choices] s (holdReset kind s) := by
  refine ⟨fun p hp => ?_⟩; cases p <;> first | exact absurd (by decide) hp | rfl

theorem beginReset_changes (kind : ResetKind) (s : State) :
    Changes [.now, .second, .reset, .tuning, .sleepPolicy, .wakeTable, .detachPolicy, .basePolicy, .penSettings,
      .table, .reader, .display, .baseSamples, .late, .baseView, .magnets, .divider, .locks, .forcing, .halt,
      .freshness, .abstain, .reported, .rotation, .hinge, .hingeBase, .presence, .bmState, .identify, .stream,
      .marks, .active, .button, .blink, .attempt, .lsol, .scanner, .scanPeriod, .readings, .bands, .capacity,
      .claims, .penClaim, .grants, .garage, .polls, .charging, .penLast, .host, .spuState, .view, .triggers,
      .causes, .lidConfirm, .episode, .mode, .live, .latched, .history, .cause, .uptime, .assembler, .link,
      .grant, .queue, .gate, .commit, .btx, .queries, .choices] s (beginReset kind s) := by
  unfold beginReset; split
  · exact holdReset_changes _ _
  · exact endReset_changes _ _

theorem softReset_changes (s : State) :
    Changes [.now, .second, .reset, .tuning, .sleepPolicy, .wakeTable, .detachPolicy, .basePolicy, .penSettings,
      .table, .reader, .display, .baseSamples, .late, .baseView, .magnets, .divider, .locks, .forcing, .halt,
      .freshness, .abstain, .reported, .rotation, .hinge, .hingeBase, .presence, .bmState, .identify, .stream,
      .marks, .active, .button, .blink, .attempt, .lsol, .scanner, .scanPeriod, .readings, .bands, .capacity,
      .claims, .penClaim, .grants, .garage, .polls, .charging, .penLast, .host, .spuState, .view, .triggers,
      .causes, .lidConfirm, .episode, .mode, .live, .latched, .history, .cause, .uptime, .assembler, .link,
      .grant, .queue, .gate, .commit, .btx, .queries, .choices] s (softReset s) := by
  unfold softReset; split
  · exact holdReset_changes _ _
  · split
    · exact ((nextChoice_changes s).mono (by decide)).trans (endReset_changes _ _)
    · exact ((nextChoice_changes s).mono (by decide)).trans (holdReset_changes _ _)

theorem assertReset_changes (s : State) :
    Changes [.now, .second, .reset, .tuning, .sleepPolicy, .wakeTable, .detachPolicy, .basePolicy, .penSettings,
      .table, .reader, .display, .baseSamples, .late, .baseView, .magnets, .divider, .locks, .forcing, .halt,
      .freshness, .abstain, .reported, .rotation, .hinge, .hingeBase, .presence, .bmState, .identify, .stream,
      .marks, .active, .button, .blink, .attempt, .lsol, .scanner, .scanPeriod, .readings, .bands, .capacity,
      .claims, .penClaim, .grants, .garage, .polls, .charging, .penLast, .host, .spuState, .view, .triggers,
      .causes, .lidConfirm, .episode, .mode, .live, .latched, .history, .cause, .uptime, .assembler, .link,
      .grant, .queue, .gate, .commit, .btx, .queries, .choices] s (assertReset s) := by
  unfold assertReset; split
  · exact Changes.refl _ _
  · refine Changes.trans ?_ (holdReset_changes _ _)
    refine ⟨fun p hp => ?_⟩; cases p <;> first | exact absurd (by decide) hp | rfl
  · rename_i kind _ _
    split
    · refine Changes.trans ?_ (holdReset_changes _ _)
      refine ⟨fun p hp => ?_⟩; cases p <;> first | exact absurd (by decide) hp | rfl
    · refine Changes.trans ?_ (holdReset_changes _ _)
      refine Changes.trans (((nextChoice_changes s).mono (by decide)).trans (endReset_changes kind s.nextChoice)) ?_
      refine ⟨fun p hp => ?_⟩; cases p <;> first | exact absurd (by decide) hp | rfl

theorem releaseReset_changes (s : State) :
    Changes [.now, .second, .reset, .tuning, .sleepPolicy, .wakeTable, .detachPolicy, .basePolicy, .penSettings,
      .table, .reader, .display, .baseSamples, .late, .baseView, .magnets, .divider, .locks, .forcing, .halt,
      .freshness, .abstain, .reported, .rotation, .hinge, .hingeBase, .presence, .bmState, .identify, .stream,
      .marks, .active, .button, .blink, .attempt, .lsol, .scanner, .scanPeriod, .readings, .bands, .capacity,
      .claims, .penClaim, .grants, .garage, .polls, .charging, .penLast, .host, .spuState, .view, .triggers,
      .causes, .lidConfirm, .episode, .mode, .live, .latched, .history, .cause, .uptime, .assembler, .link,
      .grant, .queue, .gate, .commit, .btx, .queries, .choices] s (releaseReset s) := by
  unfold releaseReset; split
  · refine Changes.trans ?_ (endReset_changes _ _)
    refine ⟨fun p hp => ?_⟩; cases p <;> first | exact absurd (by decide) hp | rfl
  · refine ⟨fun p hp => ?_⟩; cases p <;> first | exact absurd (by decide) hp | rfl

theorem serveIdentify_changes (place : Nat) (s : State) :
    Changes [.link, .queue] s (serveIdentify place s) := by
  unfold serveIdentify
  try dsimp only
  repeat' first
    | with_reducible exact Changes.refl _ _
    | (simp only [changesTo_eq]
       refine ChangesTo.record rfl ?_ ?_
       rotate_left 1
       (refine ⟨fun p hp => ?_⟩; cases p <;> first | exact absurd (by decide) hp | rfl))
    | split
    | with_reducible refine Changes.step ?_ (answer_changes _ _ _) (by decide)

theorem serveSubscribe_changes (place : Nat) (payload : List Byte) (s : State) :
    Changes [.link, .grant, .queue] s (serveSubscribe place payload s) := by
  unfold serveSubscribe
  try dsimp only
  repeat' first
    | with_reducible exact Changes.refl _ _
    | (simp only [changesTo_eq]
       refine ChangesTo.record rfl ?_ ?_
       rotate_left 1
       (refine ⟨fun p hp => ?_⟩; cases p <;> first | exact absurd (by decide) hp | rfl))
    | split
    | with_reducible refine Changes.step ?_ (answer_changes _ _ _) (by decide)

theorem serveUnsubscribe_changes (place : Nat) (payload : List Byte) (s : State) :
    Changes [.link, .grant, .queue] s (serveUnsubscribe place payload s) := by
  unfold serveUnsubscribe
  try dsimp only
  repeat' first
    | with_reducible exact Changes.refl _ _
    | (simp only [changesTo_eq]
       refine ChangesTo.record rfl ?_ ?_
       rotate_left 1
       (refine ⟨fun p hp => ?_⟩; cases p <;> first | exact absurd (by decide) hp | rfl))
    | split
    | with_reducible refine Changes.step ?_ (answer_changes _ _ _) (by decide)

theorem serveResetPart_changes (place : Nat) (s : State) :
    Changes [.link, .queue, .gate] s (serveResetPart place s) := by
  unfold serveResetPart
  try dsimp only
  repeat' first
    | with_reducible exact Changes.refl _ _
    | (simp only [changesTo_eq]
       refine ChangesTo.record rfl ?_ ?_
       rotate_left 1
       (refine ⟨fun p hp => ?_⟩; cases p <;> first | exact absurd (by decide) hp | rfl))
    | split
    | with_reducible refine Changes.step ?_ (answer_changes _ _ _) (by decide)

theorem serve_changes (place : Nat) (kind : ReqKind) (payload : List Byte) (s : State) :
    Changes [.tuning, .sleepPolicy, .wakeTable, .detachPolicy, .basePolicy, .penSettings, .table, .reader,
      .display, .baseSamples, .late, .baseView, .divider, .locks, .forcing, .freshness, .abstain, .reported,
      .rotation, .hingeBase, .presence, .bmState, .identify, .stream, .marks, .active, .blink, .attempt, .lsol,
      .scanPeriod, .claims, .penClaim, .grants, .polls, .charging, .host, .spuState, .view, .triggers, .causes,
      .lidConfirm, .episode, .mode, .live, .latched, .history, .link, .grant, .queue, .gate, .image, .commit,
      .btx, .choices] s (serve place kind payload s) := by
  cases kind
  · exact (serveIdentify_changes _ _).mono (by decide)
  · exact (serveSubscribe_changes _ _ _).mono (by decide)
  · exact (serveUnsubscribe_changes _ _ _).mono (by decide)
  · exact (serveResetPart_changes _ _).mono (by decide)
  · exact (serveGetPosture_changes _ _).mono (by decide)
  · exact (serveGetVectors_changes _ _).mono (by decide)
  · exact (serveSetRotationLock_changes _ _ _).mono (by decide)
  · exact (serveSetTuning_changes _ _ _).mono (by decide)
  · exact (serveCalibrateHinge_changes _ _ _).mono (by decide)
  · exact (serveListBases_changes _ _).mono (by decide)
  · exact (serveForgetBase_changes _ _ _).mono (by decide)
  · exact (serveSetBaseOffset_changes _ _ _).mono (by decide)
  · exact (serveAcceptBase_changes _ _).mono (by decide)
  · exact (serveSetBasePolicy_changes _ _ _).mono (by decide)
  · exact (serveRequestDetach_changes _ _).mono (by decide)
  · exact (serveDetachConsent_changes _ _ _).mono (by decide)
  · exact (serveSetDetachPolicy_changes _ _ _).mono (by decide)
  · exact (serveGetSupply_changes _ _).mono (by decide)
  · exact (serveGetPen_changes _ _).mono (by decide)
  · exact (serveSetPenCharging_changes _ _ _).mono (by decide)
  · exact (serveHostState_changes _ _ _).mono (by decide)
  · exact (serveGetSleep_changes _ _).mono (by decide)
  · exact (serveSetSleepPolicy_changes _ _ _).mono (by decide)
  · exact (serveSetWakeCauses_changes _ _ _).mono (by decide)
  · exact (serveGetConditions_changes _ _).mono (by decide)
  · exact (serveGetHistory_changes _ _ _).mono (by decide)
  · exact (serveClearConditions_changes _ _ _).mono (by decide)
  · exact (serveSaveSettings_changes _ _).mono (by decide)
  · exact (serveRestoreDefaults_changes _ _).mono (by decide)

theorem hand_changes (sl : Slot) (s : State) :
    Changes [.tuning, .sleepPolicy, .wakeTable, .detachPolicy, .basePolicy, .penSettings, .table, .reader,
      .display, .baseSamples, .late, .baseView, .divider, .locks, .forcing, .freshness, .abstain, .reported,
      .rotation, .hingeBase, .presence, .bmState, .identify, .stream, .marks, .active, .blink, .attempt, .lsol,
      .scanPeriod, .claims, .penClaim, .grants, .polls, .charging, .host, .spuState, .view, .triggers, .causes,
      .lidConfirm, .episode, .mode, .live, .latched, .history, .link, .grant, .queue, .gate, .image, .commit,
      .btx, .choices] s (hand sl s) := by
  unfold hand
  refine Changes.step ?_ (serve_changes _ _ _ _) (by decide)
  refine ⟨fun p hp => ?_⟩; cases p <;> first | exact absurd (by decide) hp | rfl

theorem handWaiting_changes (n : Nat) (s : State) :
    Changes [.tuning, .sleepPolicy, .wakeTable, .detachPolicy, .basePolicy, .penSettings, .table, .reader,
      .display, .baseSamples, .late, .baseView, .divider, .locks, .forcing, .freshness, .abstain, .reported,
      .rotation, .hingeBase, .presence, .bmState, .identify, .stream, .marks, .active, .blink, .attempt, .lsol,
      .scanPeriod, .claims, .penClaim, .grants, .polls, .charging, .host, .spuState, .view, .triggers, .causes,
      .lidConfirm, .episode, .mode, .live, .latched, .history, .link, .grant, .queue, .gate, .image, .commit,
      .btx, .choices] s (handWaiting n s) := by
  induction n generalizing s with
  | zero => exact Changes.refl _ _
  | succ n ih =>
    unfold handWaiting; split
    · exact (hand_changes _ s).trans (ih _)
    · exact Changes.refl _ _

theorem accept_changes (kind : ReqKind) (tag : Byte) (payload : List Byte) (s : State) :
    Changes [.tuning, .sleepPolicy, .wakeTable, .detachPolicy, .basePolicy, .penSettings, .table, .reader,
      .display, .baseSamples, .late, .baseView, .divider, .locks, .forcing, .freshness, .abstain, .reported,
      .rotation, .hingeBase, .presence, .bmState, .identify, .stream, .marks, .active, .blink, .attempt, .lsol,
      .scanPeriod, .claims, .penClaim, .grants, .polls, .charging, .host, .spuState, .view, .triggers, .causes,
      .lidConfirm, .episode, .mode, .live, .latched, .history, .link, .grant, .queue, .gate, .image, .commit,
      .btx, .choices] s (accept kind tag payload s) := by
  unfold accept
  try dsimp only
  repeat' first
    | with_reducible exact Changes.refl _ _
    | (simp only [changesTo_eq]
       refine ChangesTo.record rfl ?_ ?_
       rotate_left 1
       (refine ⟨fun p hp => ?_⟩; cases p <;> first | exact absurd (by decide) hp | rfl))
    | split
    | with_reducible refine Changes.step ?_ (hand_changes _ _) (by decide)

theorem goodFrame_changes (kind : Nat) (tag : Byte) (payload : List Byte) (s : State) :
    Changes [.tuning, .sleepPolicy, .wakeTable, .detachPolicy, .basePolicy, .penSettings, .table, .reader,
      .display, .baseSamples, .late, .baseView, .divider, .locks, .forcing, .freshness, .abstain, .reported,
      .rotation, .hingeBase, .presence, .bmState, .identify, .stream, .marks, .active, .blink, .attempt, .lsol,
      .scanPeriod, .claims, .penClaim, .grants, .polls, .charging, .host, .spuState, .view, .triggers, .causes,
      .lidConfirm, .episode, .mode, .live, .latched, .history, .assembler, .link, .grant, .queue, .gate, .image,
      .commit, .btx, .choices] s (goodFrame kind tag payload s) := by
  unfold goodFrame
  try dsimp only
  repeat' first
    | with_reducible exact Changes.refl _ _
    | (simp only [changesTo_eq]
       refine ChangesTo.record rfl ?_ ?_
       rotate_left 1
       (refine ⟨fun p hp => ?_⟩; cases p <;> first | exact absurd (by decide) hp | rfl))
    | split
    | with_reducible refine Changes.step ?_ (accept_changes _ _ _ _) (by decide)
    | with_reducible refine Changes.step ?_ (refuse_changes _ _) (by decide)

theorem request_changes (kind : ReqKind) (tag : Byte) (payload : List Byte) (s : State) :
    Changes [.tuning, .sleepPolicy, .wakeTable, .detachPolicy, .basePolicy, .penSettings, .table, .reader,
      .display, .baseSamples, .late, .baseView, .divider, .locks, .forcing, .freshness, .abstain, .reported,
      .rotation, .hingeBase, .presence, .bmState, .identify, .stream, .marks, .active, .blink, .attempt, .lsol,
      .scanPeriod, .claims, .penClaim, .grants, .polls, .charging, .host, .spuState, .view, .triggers, .causes,
      .lidConfirm, .episode, .mode, .live, .latched, .history, .assembler, .link, .grant, .queue, .gate, .image,
      .commit, .btx, .choices] s (request kind tag payload s) := by
  unfold request
  try dsimp only
  repeat' first
    | with_reducible exact Changes.refl _ _
    | (simp only [changesTo_eq]
       refine ChangesTo.record rfl ?_ ?_
       rotate_left 1
       (refine ⟨fun p hp => ?_⟩; cases p <;> first | exact absurd (by decide) hp | rfl))
    | split
    | with_reducible refine Changes.step ?_ (goodFrame_changes _ _ _ _) (by decide)

theorem badFrame_changes (s : State) :
    Changes [.assembler, .link, .queue] s (badFrame s) := by
  unfold badFrame
  try dsimp only
  repeat' first
    | with_reducible exact Changes.refl _ _
    | (simp only [changesTo_eq]
       refine ChangesTo.record rfl ?_ ?_
       rotate_left 1
       (refine ⟨fun p hp => ?_⟩; cases p <;> first | exact absurd (by decide) hp | rfl))
    | split
    | with_reducible refine Changes.step ?_ (refuse_changes _ _) (by decide)

theorem bodyFrame_changes (body : List Byte) (s : State) :
    Changes [.tuning, .sleepPolicy, .wakeTable, .detachPolicy, .basePolicy, .penSettings, .table, .reader,
      .display, .baseSamples, .late, .baseView, .divider, .locks, .forcing, .freshness, .abstain, .reported,
      .rotation, .hingeBase, .presence, .bmState, .identify, .stream, .marks, .active, .blink, .attempt, .lsol,
      .scanPeriod, .claims, .penClaim, .grants, .polls, .charging, .host, .spuState, .view, .triggers, .causes,
      .lidConfirm, .episode, .mode, .live, .latched, .history, .assembler, .link, .grant, .queue, .gate, .image,
      .commit, .btx, .choices] s (bodyFrame body s) := by
  unfold bodyFrame
  try dsimp only
  repeat' first
    | with_reducible exact Changes.refl _ _
    | (simp only [changesTo_eq]
       refine ChangesTo.record rfl ?_ ?_
       rotate_left 1
       (refine ⟨fun p hp => ?_⟩; cases p <;> first | exact absurd (by decide) hp | rfl))
    | split
    | with_reducible refine Changes.step ?_ (badFrame_changes _) (by decide)
    | with_reducible refine Changes.step ?_ (goodFrame_changes _ _ _ _) (by decide)

theorem rxByte_changes (b : Byte) (s : State) :
    Changes [.tuning, .sleepPolicy, .wakeTable, .detachPolicy, .basePolicy, .penSettings, .table, .reader,
      .display, .baseSamples, .late, .baseView, .divider, .locks, .forcing, .freshness, .abstain, .reported,
      .rotation, .hingeBase, .presence, .bmState, .identify, .stream, .marks, .active, .blink, .attempt, .lsol,
      .scanPeriod, .claims, .penClaim, .grants, .polls, .charging, .host, .spuState, .view, .triggers, .causes,
      .lidConfirm, .episode, .mode, .live, .latched, .history, .assembler, .link, .grant, .queue, .gate, .image,
      .commit, .btx, .choices] s (rxByte b s) := by
  unfold rxByte
  try dsimp only
  repeat' first
    | with_reducible exact Changes.refl _ _
    | (simp only [changesTo_eq]
       refine ChangesTo.record rfl ?_ ?_
       rotate_left 1
       (refine ⟨fun p hp => ?_⟩; cases p <;> first | exact absurd (by decide) hp | rfl))
    | split
    | with_reducible refine Changes.step ?_ (bodyFrame_changes _ _) (by decide)
    | with_reducible refine Changes.step ?_ (badFrame_changes _) (by decide)

theorem lengthAbandon_changes (b : Byte) (s : State) :
    Changes [.assembler] s (lengthAbandon b s) := by
  unfold lengthAbandon
  try dsimp only
  repeat' first
    | with_reducible exact Changes.refl _ _
    | (simp only [changesTo_eq]
       refine ChangesTo.record rfl ?_ ?_
       rotate_left 1
       (refine ⟨fun p hp => ?_⟩; cases p <;> first | exact absurd (by decide) hp | rfl))
    | split

theorem gapExpired_changes (s : State) :
    Changes [.assembler] s (gapExpired s) := by
  unfold gapExpired
  try dsimp only
  repeat' first
    | with_reducible exact Changes.refl _ _
    | (simp only [changesTo_eq]
       refine ChangesTo.record rfl ?_ ?_
       rotate_left 1
       (refine ⟨fun p hp => ?_⟩; cases p <;> first | exact absurd (by decide) hp | rfl))
    | split

theorem afterFrame_changes (s : State) :
    Changes [.tuning, .sleepPolicy, .wakeTable, .detachPolicy, .basePolicy, .penSettings, .table, .reader,
      .display, .baseSamples, .late, .baseView, .divider, .locks, .forcing, .freshness, .abstain, .reported,
      .rotation, .hingeBase, .presence, .bmState, .identify, .stream, .marks, .active, .blink, .attempt, .lsol,
      .scanPeriod, .claims, .penClaim, .grants, .polls, .charging, .host, .spuState, .view, .triggers, .causes,
      .lidConfirm, .episode, .mode, .live, .latched, .history, .link, .grant, .queue, .gate, .image, .commit,
      .btx, .choices] s (afterFrame s) := by
  unfold afterFrame
  exact Changes.step ((handWaiting_changes 4 s).mono (by decide)) (kick_changes _) (by decide)

theorem frameSent_changes (s : State) :
    Changes [.now, .second, .reset, .tuning, .sleepPolicy, .wakeTable, .detachPolicy, .basePolicy, .penSettings,
      .table, .reader, .display, .baseSamples, .late, .baseView, .magnets, .divider, .locks, .forcing, .halt,
      .freshness, .abstain, .reported, .rotation, .hinge, .hingeBase, .presence, .bmState, .identify, .stream,
      .marks, .active, .button, .blink, .attempt, .lsol, .scanner, .scanPeriod, .readings, .bands, .capacity,
      .claims, .penClaim, .grants, .garage, .polls, .charging, .penLast, .host, .spuState, .view, .triggers,
      .causes, .lidConfirm, .episode, .mode, .live, .latched, .history, .cause, .uptime, .assembler, .link,
      .grant, .queue, .gate, .commit, .btx, .queries, .choices, .image] s (frameSent s) := by
  unfold frameSent; split
  · exact Changes.refl _ _
  · dsimp only; split
    · refine Changes.step ?_ (softReset_changes _) (by decide)
      refine ⟨fun p hp => ?_⟩; cases p <;> first | exact absurd (by decide) hp | rfl
    · refine Changes.step ?_ (afterFrame_changes _) (by decide)
      refine ⟨fun p hp => ?_⟩; cases p <;> first | exact absurd (by decide) hp | rfl
  · refine Changes.step ?_ (afterFrame_changes _) (by decide)
    refine ⟨fun p hp => ?_⟩; cases p <;> first | exact absurd (by decide) hp | rfl
  · refine Changes.step ?_ (afterFrame_changes _) (by decide)
    refine ⟨fun p hp => ?_⟩; cases p <;> first | exact absurd (by decide) hp | rfl

end Sys2Proof.Machine
end

