-- ==== Sys2Proof/Laws/Requests.lean ====
section
/-! SUPPORT. How a request that is handed at once runs (R180, R181): its slot is free and its own, its owner serves it, and
the answer fills that slot. -/

namespace Sys2Proof.Machine

/-- Fewer than four held slots leave one of the four places free. -/
theorem exists_freePlace (slots : List Slot) (h : slots.length < 4) : ∃ k ∈ List.range 4, ∀ sl ∈ slots, sl.place ≠ k := by
  by_contra hc
  push Not at hc
  have hsub : List.range 4 ⊆ slots.map (·.place) := by
    intro k hk
    obtain ⟨sl, hm, he⟩ := hc k hk
    exact List.mem_map.mpr ⟨sl, hm, he⟩
  have hle := (List.nodup_range (n := 4)).length_le_of_subset hsub
  simp at hle
  omega

/-- The place of a new slot is one of the four, and no held slot has it (R181). -/
theorem freePlace_free (slots : List Slot) (h : slots.length < 4) :
    freePlace slots < 4 ∧ ∀ sl ∈ slots, sl.place ≠ freePlace slots := by
  obtain ⟨k, hk, hf⟩ := exists_freePlace slots h
  unfold freePlace
  cases hfind : (List.range 4).find? fun k => slots.all fun sl => sl.place != k with
  | none =>
    exfalso
    have := List.find?_eq_none.mp hfind k hk
    simp only [List.all_eq_true, bne_iff_ne, ne_eq, not_forall] at this
    obtain ⟨sl, hm, he⟩ := this
    exact he (hf sl hm)
  | some j =>
    have hj := List.find?_some hfind
    have hm := List.mem_of_find?_eq_some hfind
    simp only [List.all_eq_true, bne_iff_ne] at hj
    exact ⟨by simpa using hm, by simpa using hj⟩

/-- A phase given to a place that no earlier slot has goes to the new slot alone. -/
theorem setPhase_append (slots : List Slot) (sl : Slot) (ph : SlotPhase) (h : ∀ x ∈ slots, x.place ≠ sl.place) :
    setPhase sl.place ph (slots ++ [sl]) = slots ++ [{ sl with phase := ph }] := by
  unfold setPhase
  rw [List.map_append]
  congr 1
  · conv_rhs => rw [← List.map_id slots]
    refine List.map_congr_left fun x hx => ?_
    simp [h x hx]
  · simp

/-- Outside a held reset the part takes the command. -/
theorem whileRunning_running {s : State} (f : State → State) (h : s.held = none) : whileRunning f s = f s := by
  simp only [whileRunning, h]

theorem kindOf_kindCode (k : ReqKind) : kindOf (kindCode k) = some k := by cases k <;> rfl

/-- What every request command does: its frame is judged (R180). -/
theorem exec_requestCommand (k : ReqKind) (tag : Byte) (p : List Byte) (s : State) :
    exec (requestCommand k tag p) s = .next (whileRunning (request k tag p) s) := by
  cases k <;> rfl

theorem mayHand_of_ready {k : ReqKind} {s : State} (h : Ready k s) : mayHand k s.lc.slots s.lc = true := by
  obtain ⟨_, hg, _, hw, hs⟩ := h
  simp only [mayHand, hg, Bool.not_false, Bool.true_and, Bool.and_eq_true, Bool.not_eq_true', List.all_eq_true,
    Bool.and_eq_false_iff, decide_eq_false_iff_not, Slot.waits]
  refine ⟨?_, fun sl hm => ?_⟩
  · by_cases hk : k = .hostState
    · exact .inr (hs hk)
    · exact .inl hk
  · by_cases hp : sl.phase = .waiting
    · exact .inr (hw sl hm hp)
    · exact .inl hp

/-- A request that is ready is handed to its owner in a slot of its own (R181). -/
theorem exec_request_ready {k : ReqKind} {tag : Byte} {p : List Byte} {s : State} (h : Ready k s)
    (hp : p.length = payloadLength k) :
    exec (requestCommand k tag p) s = .next (serve (freePlace s.lc.slots) k p (inSlot k tag p .taken s)) := by
  have hm := mayHand_of_ready h
  obtain ⟨hh, _, hl, _, _⟩ := h
  have hf := (freePlace_free s.lc.slots hl).2
  rw [exec_requestCommand, whileRunning_running _ hh]
  unfold request goodFrame
  dsimp only
  rw [kindOf_kindCode]
  dsimp only
  rw [if_neg (by simp [hp]), if_neg (Nat.not_le.mpr hl)]
  unfold accept
  dsimp only
  rw [if_pos (show mayHand k s.lc.slots { s.lc with asm := Asm.hunt } = true from hm)]
  unfold hand
  dsimp only
  rw [setPhase_append _ _ _ hf]
  rfl

/-- The owner's answer over a state in which the request stands handed in its slot (R181). -/
theorem answer_inSlot {k : ReqKind} {tag : Byte} {p : List Byte} {s : State} (r : Reply) (hl : s.lc.slots.length < 4) :
    answer (freePlace s.lc.slots) r (inSlot k tag p .taken s) = replied k tag p r s := by
  have hf := (freePlace_free s.lc.slots hl).2
  have e : ((s.lc.slots ++ [({ place := freePlace s.lc.slots, kind := k, tag := tag, payload := p, phase := .taken } : Slot)]).map
      fun sl => if sl.place ∈ [freePlace s.lc.slots] then { sl with phase := .ready r s.lc.moments } else sl) =
      s.lc.slots ++ [{ place := freePlace s.lc.slots, kind := k, tag := tag, payload := p, phase := .ready r s.lc.moments }] := by
    rw [List.map_append]
    congr 1
    · conv_rhs => rw [← List.map_id s.lc.slots]
      refine List.map_congr_left fun x hx => ?_
      simp [hf x hx]
    · simp
  unfold answer answerAll replied inSlot
  dsimp only
  rw [e]

end Sys2Proof.Machine
end

