-- ==== Sys2Proof/Laws/State.lean ====
section
/-! SUPPORT. What each update leaves in each field of the state: one lemma a field, true by unfolding, so that no proof
needs to open a record update. -/

namespace Sys2Proof.Machine

/-! ### `State.nextChoice` -/

section

variable (s : State)

@[simp] theorem State.nextChoice_now : (State.nextChoice s).now = s.now := rfl
@[simp] theorem State.nextChoice_nextSecond : (State.nextChoice s).nextSecond = s.nextSecond := rfl
@[simp] theorem State.nextChoice_nrst : (State.nextChoice s).nrst = s.nrst := rfl
@[simp] theorem State.nextChoice_held : (State.nextChoice s).held = s.held := rfl
@[simp] theorem State.nextChoice_settings : (State.nextChoice s).settings = s.settings := rfl
@[simp] theorem State.nextChoice_sfe : (State.nextChoice s).sfe = s.sfe := rfl
@[simp] theorem State.nextChoice_pe : (State.nextChoice s).pe = s.pe := rfl
@[simp] theorem State.nextChoice_bm : (State.nextChoice s).bm = s.bm := rfl
@[simp] theorem State.nextChoice_det : (State.nextChoice s).det = s.det := rfl
@[simp] theorem State.nextChoice_sm : (State.nextChoice s).sm = s.sm := rfl
@[simp] theorem State.nextChoice_rba : (State.nextChoice s).rba = s.rba := rfl
@[simp] theorem State.nextChoice_pdc : (State.nextChoice s).pdc = s.pdc := rfl
@[simp] theorem State.nextChoice_spu : (State.nextChoice s).spu = s.spu := rfl
@[simp] theorem State.nextChoice_cm : (State.nextChoice s).cm = s.cm := rfl
@[simp] theorem State.nextChoice_lc : (State.nextChoice s).lc = s.lc := rfl
@[simp] theorem State.nextChoice_ss : (State.nextChoice s).ss = s.ss := rfl
@[simp] theorem State.nextChoice_btx : (State.nextChoice s).btx = s.btx := rfl
@[simp] theorem State.nextChoice_queries : (State.nextChoice s).queries = s.queries := rfl
@[simp] theorem State.nextChoice_choices : (State.nextChoice s).choices = s.choices + 1 := rfl
@[simp] theorem State.nextChoice_pending : (State.nextChoice s).pending = s.pending := rfl

end

/-! ### `sendBase` -/

section

variable (r : BaseTx) (s : State)

@[simp] theorem sendBase_now : (sendBase r s).now = s.now := rfl
@[simp] theorem sendBase_nextSecond : (sendBase r s).nextSecond = s.nextSecond := rfl
@[simp] theorem sendBase_nrst : (sendBase r s).nrst = s.nrst := rfl
@[simp] theorem sendBase_held : (sendBase r s).held = s.held := rfl
@[simp] theorem sendBase_settings : (sendBase r s).settings = s.settings := rfl
@[simp] theorem sendBase_sfe : (sendBase r s).sfe = s.sfe := rfl
@[simp] theorem sendBase_pe : (sendBase r s).pe = s.pe := rfl
@[simp] theorem sendBase_bm : (sendBase r s).bm = s.bm := rfl
@[simp] theorem sendBase_det : (sendBase r s).det = s.det := rfl
@[simp] theorem sendBase_sm : (sendBase r s).sm = s.sm := rfl
@[simp] theorem sendBase_rba : (sendBase r s).rba = s.rba := rfl
@[simp] theorem sendBase_pdc : (sendBase r s).pdc = s.pdc := rfl
@[simp] theorem sendBase_spu : (sendBase r s).spu = s.spu := rfl
@[simp] theorem sendBase_cm : (sendBase r s).cm = s.cm := rfl
@[simp] theorem sendBase_lc : (sendBase r s).lc = s.lc := rfl
@[simp] theorem sendBase_ss : (sendBase r s).ss = s.ss := rfl
@[simp] theorem sendBase_btx : (sendBase r s).btx = s.btx ++ [r] := rfl
@[simp] theorem sendBase_queries : (sendBase r s).queries = s.queries := rfl
@[simp] theorem sendBase_choices : (sendBase r s).choices = s.choices := rfl
@[simp] theorem sendBase_pending : (sendBase r s).pending = s.pending := rfl

end

/-! ### `sendQuery` -/

section

variable (s : State)

@[simp] theorem sendQuery_now : (sendQuery s).now = s.now := rfl
@[simp] theorem sendQuery_nextSecond : (sendQuery s).nextSecond = s.nextSecond := rfl
@[simp] theorem sendQuery_nrst : (sendQuery s).nrst = s.nrst := rfl
@[simp] theorem sendQuery_held : (sendQuery s).held = s.held := rfl
@[simp] theorem sendQuery_settings : (sendQuery s).settings = s.settings := rfl
@[simp] theorem sendQuery_sfe : (sendQuery s).sfe = s.sfe := rfl
@[simp] theorem sendQuery_pe : (sendQuery s).pe = s.pe := rfl
@[simp] theorem sendQuery_bm : (sendQuery s).bm = s.bm := rfl
@[simp] theorem sendQuery_det : (sendQuery s).det = s.det := rfl
@[simp] theorem sendQuery_sm : (sendQuery s).sm = s.sm := rfl
@[simp] theorem sendQuery_rba : (sendQuery s).rba = s.rba := rfl
@[simp] theorem sendQuery_pdc : (sendQuery s).pdc = s.pdc := rfl
@[simp] theorem sendQuery_spu : (sendQuery s).spu = s.spu := rfl
@[simp] theorem sendQuery_cm : (sendQuery s).cm = s.cm := rfl
@[simp] theorem sendQuery_lc : (sendQuery s).lc = s.lc := rfl
@[simp] theorem sendQuery_ss : (sendQuery s).ss = s.ss := rfl
@[simp] theorem sendQuery_btx : (sendQuery s).btx = s.btx := rfl
@[simp] theorem sendQuery_queries : (sendQuery s).queries = s.queries + 1 := rfl
@[simp] theorem sendQuery_choices : (sendQuery s).choices = s.choices := rfl
@[simp] theorem sendQuery_pending : (sendQuery s).pending = s.pending := rfl

end

/-! ### `advance` -/

section

variable (d : Nat) (s : State)

@[simp] theorem advance_now : (advance d s).now = s.now + d := rfl
@[simp] theorem advance_nextSecond : (advance d s).nextSecond = s.nextSecond := rfl
@[simp] theorem advance_nrst : (advance d s).nrst = s.nrst := rfl
@[simp] theorem advance_held : (advance d s).held = s.held := rfl
@[simp] theorem advance_settings : (advance d s).settings = s.settings := rfl
@[simp] theorem advance_sfe : (advance d s).sfe = s.sfe := rfl
@[simp] theorem advance_pe : (advance d s).pe = s.pe := rfl
@[simp] theorem advance_bm : (advance d s).bm = s.bm := rfl
@[simp] theorem advance_det : (advance d s).det = s.det := rfl
@[simp] theorem advance_sm : (advance d s).sm = s.sm := rfl
@[simp] theorem advance_rba : (advance d s).rba = s.rba := rfl
@[simp] theorem advance_pdc : (advance d s).pdc = s.pdc.elapse d := rfl
@[simp] theorem advance_spu : (advance d s).spu = s.spu := rfl
@[simp] theorem advance_cm : (advance d s).cm = s.cm := rfl
@[simp] theorem advance_lc : (advance d s).lc = s.lc := rfl
@[simp] theorem advance_ss : (advance d s).ss = s.ss := rfl
@[simp] theorem advance_btx : (advance d s).btx = s.btx := rfl
@[simp] theorem advance_queries : (advance d s).queries = s.queries := rfl
@[simp] theorem advance_choices : (advance d s).choices = s.choices := rfl
@[simp] theorem advance_pending : (advance d s).pending = s.pending := rfl

end

/-! ### `runTo` -/

section

variable (d : Nat) (s : State)

@[simp] theorem runTo_now : (runTo d s).now = s.now + (d - s.now) := rfl
@[simp] theorem runTo_nextSecond : (runTo d s).nextSecond = s.nextSecond := rfl
@[simp] theorem runTo_nrst : (runTo d s).nrst = s.nrst := rfl
@[simp] theorem runTo_held : (runTo d s).held = s.held := rfl
@[simp] theorem runTo_settings : (runTo d s).settings = s.settings := rfl
@[simp] theorem runTo_sfe : (runTo d s).sfe = s.sfe := rfl
@[simp] theorem runTo_pe : (runTo d s).pe = s.pe := rfl
@[simp] theorem runTo_bm : (runTo d s).bm = s.bm := rfl
@[simp] theorem runTo_det : (runTo d s).det = s.det := rfl
@[simp] theorem runTo_sm : (runTo d s).sm = s.sm := rfl
@[simp] theorem runTo_rba : (runTo d s).rba = s.rba := rfl
@[simp] theorem runTo_pdc : (runTo d s).pdc = s.pdc.elapse (d - s.now) := rfl
@[simp] theorem runTo_spu : (runTo d s).spu = s.spu := rfl
@[simp] theorem runTo_cm : (runTo d s).cm = s.cm := rfl
@[simp] theorem runTo_lc : (runTo d s).lc = s.lc := rfl
@[simp] theorem runTo_ss : (runTo d s).ss = s.ss := rfl
@[simp] theorem runTo_btx : (runTo d s).btx = s.btx := rfl
@[simp] theorem runTo_queries : (runTo d s).queries = s.queries := rfl
@[simp] theorem runTo_choices : (runTo d s).choices = s.choices := rfl
@[simp] theorem runTo_pending : (runTo d s).pending = s.pending := rfl

end

/-! ### `fall` -/

section

variable (c : Cond) (s : State)

@[simp] theorem fall_now : (fall c s).now = s.now := rfl
@[simp] theorem fall_nextSecond : (fall c s).nextSecond = s.nextSecond := rfl
@[simp] theorem fall_nrst : (fall c s).nrst = s.nrst := rfl
@[simp] theorem fall_held : (fall c s).held = s.held := rfl
@[simp] theorem fall_settings : (fall c s).settings = s.settings := rfl
@[simp] theorem fall_sfe : (fall c s).sfe = s.sfe := rfl
@[simp] theorem fall_pe : (fall c s).pe = s.pe := rfl
@[simp] theorem fall_bm : (fall c s).bm = s.bm := rfl
@[simp] theorem fall_det : (fall c s).det = s.det := rfl
@[simp] theorem fall_sm : (fall c s).sm = s.sm := rfl
@[simp] theorem fall_rba : (fall c s).rba = s.rba := rfl
@[simp] theorem fall_pdc : (fall c s).pdc = s.pdc := rfl
@[simp] theorem fall_spu : (fall c s).spu = s.spu := rfl
@[simp] theorem fall_cm : (fall c s).cm = { s.cm with live := bitDrop s.cm.live c.idx } := rfl
@[simp] theorem fall_lc : (fall c s).lc = s.lc := rfl
@[simp] theorem fall_ss : (fall c s).ss = s.ss := rfl
@[simp] theorem fall_btx : (fall c s).btx = s.btx := rfl
@[simp] theorem fall_queries : (fall c s).queries = s.queries := rfl
@[simp] theorem fall_choices : (fall c s).choices = s.choices := rfl
@[simp] theorem fall_pending : (fall c s).pending = s.pending := rfl

end

/-! ### `inSlot` -/

section

variable (k : ReqKind) (tag : Byte) (p : List Byte) (ph : SlotPhase) (s : State)

@[simp] theorem inSlot_now : (inSlot k tag p ph s).now = s.now := rfl
@[simp] theorem inSlot_nextSecond : (inSlot k tag p ph s).nextSecond = s.nextSecond := rfl
@[simp] theorem inSlot_nrst : (inSlot k tag p ph s).nrst = s.nrst := rfl
@[simp] theorem inSlot_held : (inSlot k tag p ph s).held = s.held := rfl
@[simp] theorem inSlot_settings : (inSlot k tag p ph s).settings = s.settings := rfl
@[simp] theorem inSlot_sfe : (inSlot k tag p ph s).sfe = s.sfe := rfl
@[simp] theorem inSlot_pe : (inSlot k tag p ph s).pe = s.pe := rfl
@[simp] theorem inSlot_bm : (inSlot k tag p ph s).bm = s.bm := rfl
@[simp] theorem inSlot_det : (inSlot k tag p ph s).det = s.det := rfl
@[simp] theorem inSlot_sm : (inSlot k tag p ph s).sm = s.sm := rfl
@[simp] theorem inSlot_rba : (inSlot k tag p ph s).rba = s.rba := rfl
@[simp] theorem inSlot_pdc : (inSlot k tag p ph s).pdc = s.pdc := rfl
@[simp] theorem inSlot_spu : (inSlot k tag p ph s).spu = s.spu := rfl
@[simp] theorem inSlot_cm : (inSlot k tag p ph s).cm = s.cm := rfl
@[simp] theorem inSlot_ss : (inSlot k tag p ph s).ss = s.ss := rfl
@[simp] theorem inSlot_btx : (inSlot k tag p ph s).btx = s.btx := rfl
@[simp] theorem inSlot_queries : (inSlot k tag p ph s).queries = s.queries := rfl
@[simp] theorem inSlot_choices : (inSlot k tag p ph s).choices = s.choices := rfl
@[simp] theorem inSlot_pending : (inSlot k tag p ph s).pending = s.pending := rfl

end

/-! ### `Lc.startReply` -/

section

variable (sl : Slot) (r : Reply) (l : Lc)

@[simp] theorem Lc.startReply_asm : (Lc.startReply sl r l).asm = l.asm := rfl
@[simp] theorem Lc.startReply_slots : (Lc.startReply sl r l).slots = setPhase sl.place .sending l.slots := rfl
@[simp] theorem Lc.startReply_refusal : (Lc.startReply sl r l).refusal = l.refusal := rfl
@[simp] theorem Lc.startReply_tx : (Lc.startReply sl r l).tx = some (.reply sl.kind sl.tag r) := rfl
@[simp] theorem Lc.startReply_grant : (Lc.startReply sl r l).grant = l.grant := rfl
@[simp] theorem Lc.startReply_queue : (Lc.startReply sl r l).queue = l.queue := rfl
@[simp] theorem Lc.startReply_lost : (Lc.startReply sl r l).lost = l.lost := rfl
@[simp] theorem Lc.startReply_gateClosed : (Lc.startReply sl r l).gateClosed = l.gateClosed := rfl
@[simp] theorem Lc.startReply_moments : (Lc.startReply sl r l).moments = l.moments := rfl

end

/-! ### `Lc.startRefusal` -/

section

variable (rf : Refused) (l : Lc)

@[simp] theorem Lc.startRefusal_asm : (Lc.startRefusal rf l).asm = l.asm := rfl
@[simp] theorem Lc.startRefusal_slots : (Lc.startRefusal rf l).slots = l.slots := rfl
@[simp] theorem Lc.startRefusal_refusal : (Lc.startRefusal rf l).refusal = some { rf with sending := true } := rfl
@[simp] theorem Lc.startRefusal_tx : (Lc.startRefusal rf l).tx = some (.refusal rf.item) := rfl
@[simp] theorem Lc.startRefusal_grant : (Lc.startRefusal rf l).grant = l.grant := rfl
@[simp] theorem Lc.startRefusal_queue : (Lc.startRefusal rf l).queue = l.queue := rfl
@[simp] theorem Lc.startRefusal_lost : (Lc.startRefusal rf l).lost = l.lost := rfl
@[simp] theorem Lc.startRefusal_gateClosed : (Lc.startRefusal rf l).gateClosed = l.gateClosed := rfl
@[simp] theorem Lc.startRefusal_moments : (Lc.startRefusal rf l).moments = l.moments := rfl

end

/-! ### `freeSent` -/

section

variable (l : Lc)

@[simp] theorem freeSent_asm : (freeSent l).asm = l.asm := rfl
@[simp] theorem freeSent_slots : (freeSent l).slots = l.slots.filter fun sl => sl.phase != .sending := rfl
@[simp] theorem freeSent_refusal : (freeSent l).refusal = l.refusal := rfl
@[simp] theorem freeSent_tx : (freeSent l).tx = none := rfl
@[simp] theorem freeSent_grant : (freeSent l).grant = l.grant := rfl
@[simp] theorem freeSent_queue : (freeSent l).queue = l.queue := rfl
@[simp] theorem freeSent_lost : (freeSent l).lost = l.lost := rfl
@[simp] theorem freeSent_gateClosed : (freeSent l).gateClosed = l.gateClosed := rfl
@[simp] theorem freeSent_moments : (freeSent l).moments = l.moments := rfl

end

/-! ### `Spu.noEpisode` -/

section

variable (u : Spu)

@[simp] theorem Spu.noEpisode_host : (Spu.noEpisode u).host = u.host := rfl
@[simp] theorem Spu.noEpisode_state : (Spu.noEpisode u).state = u.state := rfl
@[simp] theorem Spu.noEpisode_view : (Spu.noEpisode u).view = u.view := rfl
@[simp] theorem Spu.noEpisode_lid : (Spu.noEpisode u).lid = u.lid := rfl
@[simp] theorem Spu.noEpisode_faceDown : (Spu.noEpisode u).faceDown = u.faceDown := rfl
@[simp] theorem Spu.noEpisode_supply : (Spu.noEpisode u).supply = u.supply := rfl
@[simp] theorem Spu.noEpisode_advised : (Spu.noEpisode u).advised = u.advised := rfl
@[simp] theorem Spu.noEpisode_pending : (Spu.noEpisode u).pending = u.pending := rfl
@[simp] theorem Spu.noEpisode_causes : (Spu.noEpisode u).causes = 0 := rfl
@[simp] theorem Spu.noEpisode_lidConfirm : (Spu.noEpisode u).lidConfirm = u.lidConfirm := rfl
@[simp] theorem Spu.noEpisode_attempt : (Spu.noEpisode u).attempt = 0 := rfl
@[simp] theorem Spu.noEpisode_limit : (Spu.noEpisode u).limit = none := rfl
@[simp] theorem Spu.noEpisode_wake : (Spu.noEpisode u).wake = none := rfl
@[simp] theorem Spu.noEpisode_gap : (Spu.noEpisode u).gap = none := rfl
@[simp] theorem Spu.noEpisode_hwake : (Spu.noEpisode u).hwake = false := rfl
@[simp] theorem Spu.noEpisode_mode : (Spu.noEpisode u).mode = u.mode := rfl

end

/-! ### `Spu.suspending` -/

section

variable (u : Spu)

@[simp] theorem Spu.suspending_host : (Spu.suspending u).host = u.host := rfl
@[simp] theorem Spu.suspending_state : (Spu.suspending u).state = .suspending := rfl
@[simp] theorem Spu.suspending_view : (Spu.suspending u).view = u.view := rfl
@[simp] theorem Spu.suspending_lid : (Spu.suspending u).lid = u.lid := rfl
@[simp] theorem Spu.suspending_faceDown : (Spu.suspending u).faceDown = u.faceDown := rfl
@[simp] theorem Spu.suspending_supply : (Spu.suspending u).supply = u.supply := rfl
@[simp] theorem Spu.suspending_advised : (Spu.suspending u).advised = 0 := rfl
@[simp] theorem Spu.suspending_pending : (Spu.suspending u).pending = 0 := rfl
@[simp] theorem Spu.suspending_causes : (Spu.suspending u).causes = u.causes := rfl
@[simp] theorem Spu.suspending_lidConfirm : (Spu.suspending u).lidConfirm = u.lidConfirm := rfl
@[simp] theorem Spu.suspending_attempt : (Spu.suspending u).attempt = u.attempt := rfl
@[simp] theorem Spu.suspending_limit : (Spu.suspending u).limit = u.limit := rfl
@[simp] theorem Spu.suspending_wake : (Spu.suspending u).wake = u.wake := rfl
@[simp] theorem Spu.suspending_gap : (Spu.suspending u).gap = u.gap := rfl
@[simp] theorem Spu.suspending_hwake : (Spu.suspending u).hwake = u.hwake := rfl
@[simp] theorem Spu.suspending_mode : (Spu.suspending u).mode = u.mode := rfl

end

/-! ### `Spu.episode` -/

section

variable (now : Nat) (p : SleepPolicy) (causes : BitVec 6) (u : Spu)

@[simp] theorem Spu.episode_host : (Spu.episode now p causes u).host = u.host := rfl
@[simp] theorem Spu.episode_state : (Spu.episode now p causes u).state = .waking := rfl
@[simp] theorem Spu.episode_view : (Spu.episode now p causes u).view = u.view := rfl
@[simp] theorem Spu.episode_lid : (Spu.episode now p causes u).lid = u.lid := rfl
@[simp] theorem Spu.episode_faceDown : (Spu.episode now p causes u).faceDown = u.faceDown := rfl
@[simp] theorem Spu.episode_supply : (Spu.episode now p causes u).supply = u.supply := rfl
@[simp] theorem Spu.episode_advised : (Spu.episode now p causes u).advised = u.advised := rfl
@[simp] theorem Spu.episode_pending : (Spu.episode now p causes u).pending = u.pending := rfl
@[simp] theorem Spu.episode_causes : (Spu.episode now p causes u).causes = causes := rfl
@[simp] theorem Spu.episode_lidConfirm : (Spu.episode now p causes u).lidConfirm = u.lidConfirm := rfl
@[simp] theorem Spu.episode_attempt : (Spu.episode now p causes u).attempt = 1 := rfl
@[simp] theorem Spu.episode_limit : (Spu.episode now p causes u).limit = some p.attemptLimit := rfl
@[simp] theorem Spu.episode_wake : (Spu.episode now p causes u).wake = some (now + p.wakeTimeout) := rfl
@[simp] theorem Spu.episode_gap : (Spu.episode now p causes u).gap = none := rfl
@[simp] theorem Spu.episode_hwake : (Spu.episode now p causes u).hwake = true := rfl
@[simp] theorem Spu.episode_mode : (Spu.episode now p causes u).mode = u.mode := rfl

end

/-! ### `Cm.risen` -/

section

variable (c : Cond) (r : HistoryRecord) (m : Cm)

@[simp] theorem Cm.risen_live : (Cm.risen c r m).live = if c.isState = true then bitAdd m.live c.idx else m.live := rfl
@[simp] theorem Cm.risen_latched : (Cm.risen c r m).latched = bitAdd m.latched c.idx := rfl
@[simp] theorem Cm.risen_ring : (Cm.risen c r m).ring = ringAppend m.ring r := rfl
@[simp] theorem Cm.risen_next : (Cm.risen c r m).next = m.next + 1 := rfl
@[simp] theorem Cm.risen_cause : (Cm.risen c r m).cause = m.cause := rfl
@[simp] theorem Cm.risen_uptime : (Cm.risen c r m).uptime = m.uptime := rfl

end

/-! ### `kick` -/

section

variable (s : State)

/-- `kick` changes the link's record at most. -/
theorem kick_eq : kick s = { s with lc := (kick s).lc } := by
  unfold kick; split <;> rfl

@[simp] theorem kick_now : (kick s).now = s.now := by rw [kick_eq]
@[simp] theorem kick_nextSecond : (kick s).nextSecond = s.nextSecond := by rw [kick_eq]
@[simp] theorem kick_nrst : (kick s).nrst = s.nrst := by rw [kick_eq]
@[simp] theorem kick_held : (kick s).held = s.held := by rw [kick_eq]
@[simp] theorem kick_settings : (kick s).settings = s.settings := by rw [kick_eq]
@[simp] theorem kick_sfe : (kick s).sfe = s.sfe := by rw [kick_eq]
@[simp] theorem kick_pe : (kick s).pe = s.pe := by rw [kick_eq]
@[simp] theorem kick_bm : (kick s).bm = s.bm := by rw [kick_eq]
@[simp] theorem kick_det : (kick s).det = s.det := by rw [kick_eq]
@[simp] theorem kick_sm : (kick s).sm = s.sm := by rw [kick_eq]
@[simp] theorem kick_rba : (kick s).rba = s.rba := by rw [kick_eq]
@[simp] theorem kick_pdc : (kick s).pdc = s.pdc := by rw [kick_eq]
@[simp] theorem kick_spu : (kick s).spu = s.spu := by rw [kick_eq]
@[simp] theorem kick_cm : (kick s).cm = s.cm := by rw [kick_eq]
@[simp] theorem kick_ss : (kick s).ss = s.ss := by rw [kick_eq]
@[simp] theorem kick_btx : (kick s).btx = s.btx := by rw [kick_eq]
@[simp] theorem kick_queries : (kick s).queries = s.queries := by rw [kick_eq]
@[simp] theorem kick_choices : (kick s).choices = s.choices := by rw [kick_eq]
@[simp] theorem kick_pending : (kick s).pending = s.pending := by rw [kick_eq]

end

/-! ### `offer` -/

section

variable (e : Event) (s : State)

/-- `offer` changes the link's record at most. -/
theorem offer_eq : offer e s = { s with lc := (offer e s).lc } := by
  unfold offer; split
  · rw [kick_eq]
  · rfl

@[simp] theorem offer_now : (offer e s).now = s.now := by rw [offer_eq]
@[simp] theorem offer_nextSecond : (offer e s).nextSecond = s.nextSecond := by rw [offer_eq]
@[simp] theorem offer_nrst : (offer e s).nrst = s.nrst := by rw [offer_eq]
@[simp] theorem offer_held : (offer e s).held = s.held := by rw [offer_eq]
@[simp] theorem offer_settings : (offer e s).settings = s.settings := by rw [offer_eq]
@[simp] theorem offer_sfe : (offer e s).sfe = s.sfe := by rw [offer_eq]
@[simp] theorem offer_pe : (offer e s).pe = s.pe := by rw [offer_eq]
@[simp] theorem offer_bm : (offer e s).bm = s.bm := by rw [offer_eq]
@[simp] theorem offer_det : (offer e s).det = s.det := by rw [offer_eq]
@[simp] theorem offer_sm : (offer e s).sm = s.sm := by rw [offer_eq]
@[simp] theorem offer_rba : (offer e s).rba = s.rba := by rw [offer_eq]
@[simp] theorem offer_pdc : (offer e s).pdc = s.pdc := by rw [offer_eq]
@[simp] theorem offer_spu : (offer e s).spu = s.spu := by rw [offer_eq]
@[simp] theorem offer_cm : (offer e s).cm = s.cm := by rw [offer_eq]
@[simp] theorem offer_ss : (offer e s).ss = s.ss := by rw [offer_eq]
@[simp] theorem offer_btx : (offer e s).btx = s.btx := by rw [offer_eq]
@[simp] theorem offer_queries : (offer e s).queries = s.queries := by rw [offer_eq]
@[simp] theorem offer_choices : (offer e s).choices = s.choices := by rw [offer_eq]
@[simp] theorem offer_pending : (offer e s).pending = s.pending := by rw [offer_eq]

end

/-! ### `answerAll` -/

section

variable (places : List Nat) (r : Reply) (s : State)

/-- `answerAll` changes the link's record at most. -/
theorem answerAll_eq : answerAll places r s = { s with lc := (answerAll places r s).lc } := by
  unfold answerAll; rw [kick_eq]

@[simp] theorem answerAll_now : (answerAll places r s).now = s.now := by rw [answerAll_eq]
@[simp] theorem answerAll_nextSecond : (answerAll places r s).nextSecond = s.nextSecond := by rw [answerAll_eq]
@[simp] theorem answerAll_nrst : (answerAll places r s).nrst = s.nrst := by rw [answerAll_eq]
@[simp] theorem answerAll_held : (answerAll places r s).held = s.held := by rw [answerAll_eq]
@[simp] theorem answerAll_settings : (answerAll places r s).settings = s.settings := by rw [answerAll_eq]
@[simp] theorem answerAll_sfe : (answerAll places r s).sfe = s.sfe := by rw [answerAll_eq]
@[simp] theorem answerAll_pe : (answerAll places r s).pe = s.pe := by rw [answerAll_eq]
@[simp] theorem answerAll_bm : (answerAll places r s).bm = s.bm := by rw [answerAll_eq]
@[simp] theorem answerAll_det : (answerAll places r s).det = s.det := by rw [answerAll_eq]
@[simp] theorem answerAll_sm : (answerAll places r s).sm = s.sm := by rw [answerAll_eq]
@[simp] theorem answerAll_rba : (answerAll places r s).rba = s.rba := by rw [answerAll_eq]
@[simp] theorem answerAll_pdc : (answerAll places r s).pdc = s.pdc := by rw [answerAll_eq]
@[simp] theorem answerAll_spu : (answerAll places r s).spu = s.spu := by rw [answerAll_eq]
@[simp] theorem answerAll_cm : (answerAll places r s).cm = s.cm := by rw [answerAll_eq]
@[simp] theorem answerAll_ss : (answerAll places r s).ss = s.ss := by rw [answerAll_eq]
@[simp] theorem answerAll_btx : (answerAll places r s).btx = s.btx := by rw [answerAll_eq]
@[simp] theorem answerAll_queries : (answerAll places r s).queries = s.queries := by rw [answerAll_eq]
@[simp] theorem answerAll_choices : (answerAll places r s).choices = s.choices := by rw [answerAll_eq]
@[simp] theorem answerAll_pending : (answerAll places r s).pending = s.pending := by rw [answerAll_eq]

end

/-! ### `answer` -/

section

variable (place : Nat) (r : Reply) (s : State)

/-- `answer` changes the link's record at most. -/
theorem answer_eq : answer place r s = { s with lc := (answer place r s).lc } := by
  unfold answer; rw [answerAll_eq]

@[simp] theorem answer_now : (answer place r s).now = s.now := by rw [answer_eq]
@[simp] theorem answer_nextSecond : (answer place r s).nextSecond = s.nextSecond := by rw [answer_eq]
@[simp] theorem answer_nrst : (answer place r s).nrst = s.nrst := by rw [answer_eq]
@[simp] theorem answer_held : (answer place r s).held = s.held := by rw [answer_eq]
@[simp] theorem answer_settings : (answer place r s).settings = s.settings := by rw [answer_eq]
@[simp] theorem answer_sfe : (answer place r s).sfe = s.sfe := by rw [answer_eq]
@[simp] theorem answer_pe : (answer place r s).pe = s.pe := by rw [answer_eq]
@[simp] theorem answer_bm : (answer place r s).bm = s.bm := by rw [answer_eq]
@[simp] theorem answer_det : (answer place r s).det = s.det := by rw [answer_eq]
@[simp] theorem answer_sm : (answer place r s).sm = s.sm := by rw [answer_eq]
@[simp] theorem answer_rba : (answer place r s).rba = s.rba := by rw [answer_eq]
@[simp] theorem answer_pdc : (answer place r s).pdc = s.pdc := by rw [answer_eq]
@[simp] theorem answer_spu : (answer place r s).spu = s.spu := by rw [answer_eq]
@[simp] theorem answer_cm : (answer place r s).cm = s.cm := by rw [answer_eq]
@[simp] theorem answer_ss : (answer place r s).ss = s.ss := by rw [answer_eq]
@[simp] theorem answer_btx : (answer place r s).btx = s.btx := by rw [answer_eq]
@[simp] theorem answer_queries : (answer place r s).queries = s.queries := by rw [answer_eq]
@[simp] theorem answer_choices : (answer place r s).choices = s.choices := by rw [answer_eq]
@[simp] theorem answer_pending : (answer place r s).pending = s.pending := by rw [answer_eq]

end

/-! ### `refuse` -/

section

variable (item : RefusalItem) (s : State)

/-- `refuse` changes the link's record at most. -/
theorem refuse_eq : refuse item s = { s with lc := (refuse item s).lc } := by
  unfold refuse; split
  · rfl
  · rw [kick_eq]

@[simp] theorem refuse_now : (refuse item s).now = s.now := by rw [refuse_eq]
@[simp] theorem refuse_nextSecond : (refuse item s).nextSecond = s.nextSecond := by rw [refuse_eq]
@[simp] theorem refuse_nrst : (refuse item s).nrst = s.nrst := by rw [refuse_eq]
@[simp] theorem refuse_held : (refuse item s).held = s.held := by rw [refuse_eq]
@[simp] theorem refuse_settings : (refuse item s).settings = s.settings := by rw [refuse_eq]
@[simp] theorem refuse_sfe : (refuse item s).sfe = s.sfe := by rw [refuse_eq]
@[simp] theorem refuse_pe : (refuse item s).pe = s.pe := by rw [refuse_eq]
@[simp] theorem refuse_bm : (refuse item s).bm = s.bm := by rw [refuse_eq]
@[simp] theorem refuse_det : (refuse item s).det = s.det := by rw [refuse_eq]
@[simp] theorem refuse_sm : (refuse item s).sm = s.sm := by rw [refuse_eq]
@[simp] theorem refuse_rba : (refuse item s).rba = s.rba := by rw [refuse_eq]
@[simp] theorem refuse_pdc : (refuse item s).pdc = s.pdc := by rw [refuse_eq]
@[simp] theorem refuse_spu : (refuse item s).spu = s.spu := by rw [refuse_eq]
@[simp] theorem refuse_cm : (refuse item s).cm = s.cm := by rw [refuse_eq]
@[simp] theorem refuse_ss : (refuse item s).ss = s.ss := by rw [refuse_eq]
@[simp] theorem refuse_btx : (refuse item s).btx = s.btx := by rw [refuse_eq]
@[simp] theorem refuse_queries : (refuse item s).queries = s.queries := by rw [refuse_eq]
@[simp] theorem refuse_choices : (refuse item s).choices = s.choices := by rw [refuse_eq]
@[simp] theorem refuse_pending : (refuse item s).pending = s.pending := by rw [refuse_eq]

end

end Sys2Proof.Machine
end

