-- ==== Sys2Proof/Laws/Operations.lean ====
section
/-! SUPPORT. What each shared operation can do, said once: the free orders, the expiry of a timer, the transmitter's choice,
the handing of requests, the choice of part mode and the grant table. What an operation leaves alone is said by the lemmas
`<operation>_changes` of the Frames files. -/

namespace Sys2Proof.Machine

/-! ## Free orders -/

/-- Two acts in either order end as one of the two compositions. -/
theorem eitherOrder_cases (f g : State → State) (s : State) :
    eitherOrder f g s = g (f s.nextChoice) ∨ eitherOrder f g s = f (g s.nextChoice) := by
  unfold eitherOrder; split
  · exact .inl rfl
  · exact .inr rfl

/-- A property that both compositions have holds in either order. -/
theorem eitherOrder_holds {P : State → Prop} {f g : State → State} {s : State} (h : P (g (f s.nextChoice)))
    (k : P (f (g s.nextChoice))) : P (eitherOrder f g s) := by
  rcases eitherOrder_cases f g s with e | e <;> rw [e] <;> assumption

/-- An act that may come before an operation or in the middle of it. -/
theorem eitherTime_cases (act : State → State) (op : (State → State) → State → State) (s : State) :
    eitherTime act op s = op id (act s.nextChoice) ∨ eitherTime act op s = op act s.nextChoice := by
  unfold eitherTime; split
  · exact .inl rfl
  · exact .inr rfl

/-- A property that each of three acts keeps, and that does not see the choices made, is kept in any order. -/
theorem anyOrder_keeps {P : State → Prop} {f g h : State → State} {s : State} (hc : ∀ t, P t → P t.nextChoice)
    (hf : ∀ t, P t → P (f t)) (hg : ∀ t, P t → P (g t)) (hh : ∀ t, P t → P (h t)) (hs : P s) : P (anyOrder f g h s) := by
  have two : ∀ a b : State → State, (∀ t, P t → P (a t)) → (∀ t, P t → P (b t)) → ∀ t, P t → P (eitherOrder a b t) :=
    fun a b ha hb t ht => eitherOrder_holds (hb _ (ha _ (hc _ ht))) (ha _ (hb _ (hc _ ht)))
  unfold anyOrder
  split
  · exact two g h hg hh _ (hf _ (hc _ hs))
  · split
    · exact two f h hf hh _ (hg _ (hc _ (hc _ hs)))
    · exact two f g hf hg _ (hh _ (hc _ (hc _ hs)))

/-- A message and an act that the manual does not order end as one of three compositions. -/
theorem raceLc_cases (emit act : State → State) (s : State) :
    raceLc emit act s = emit (act s) ∨ raceLc emit act s = act (emit s.nextChoice) ∨
    raceLc emit act s = emit (act s.nextChoice) := by
  unfold raceLc
  split
  · exact .inl rfl
  · exact (eitherOrder_cases emit act s).elim (fun e => .inr (.inl e)) (fun e => .inr (.inr e))

/-- A property that a message and an act both keep, and that does not see the choices made, is kept by their race. -/
theorem raceLc_keeps {P : State → Prop} {emit act : State → State} {s : State} (hc : ∀ t, P t → P t.nextChoice)
    (he : ∀ t, P t → P (emit t)) (ha : ∀ t, P t → P (act t)) (hs : P s) : P (raceLc emit act s) := by
  rcases raceLc_cases emit act s with e | e | e <;> rw [e]
  · exact he _ (ha _ hs)
  · exact ha _ (he _ (hc _ hs))
  · exact he _ (ha _ (hc _ hs))

/-! ## Timers -/

/-- The expiry of a running timer: the rest of its time passes, then the act. -/
theorem onExpiry_some {t : Timer} {d : Nat} (f : State → State) (s : State) (h : t = some d) :
    onExpiry t f s = f (runTo d s) := by rw [h]; rfl

/-- An idle timer has no expiry. -/
theorem onExpiry_none {t : Timer} (f : State → State) (s : State) (h : t = none) : onExpiry t f s = s := by rw [h]; rfl

/-- Time moves the charge times of an open cycle in a charging state, and no other field of PDC (R137). -/
theorem Pdc.elapse_eq (d : Nat) (p : Pdc) :
    p.elapse d = { p with chargeMs := (p.elapse d).chargeMs, prechargeMs := (p.elapse d).prechargeMs } := by
  unfold Pdc.elapse; split <;> rfl

/-- Outside the charging states no charge time passes (R137). -/
theorem Pdc.elapse_idle {d : Nat} {p : Pdc} (h : PdcState.charging p.state = false) : p.elapse d = p := by
  unfold Pdc.elapse
  rw [if_neg fun k => by simp [h] at k]

/-! ## The transmitter (R183) -/

/-- A transmitter that is sending is not interrupted. -/
theorem kick_sending {s : State} (h : s.lc.tx.isSome = true) : kick s = s := by
  unfold kick; split
  · rfl
  · rename_i e; rw [e] at h; cases h

/-- Whatever is found to be the earliest reply is a READY one of the list. -/
theorem earliestReply_mem : ∀ (l : List Slot) (b : Slot) (r : Reply) (t : Nat), earliestReply l = some (b, r, t) →
    b ∈ l ∧ b.phase = .ready r t := by
  intro l
  induction l with
  | nil => intro b r t h; simp [earliestReply] at h
  | cons c l ih =>
    intro b r t h
    unfold earliestReply at h
    split at h
    · rename_i r' t' hp
      split at h
      · rename_i b' rb' tb' he
        have := ih _ _ _ he
        split at h
        · cases h; exact ⟨by simp, hp⟩
        · cases h; exact ⟨by simp [this.1], this.2⟩
      · cases h; exact ⟨by simp, hp⟩
    · have := ih _ _ _ h; exact ⟨by simp [this.1], this.2⟩

/-- Where a reply is READY, one is found that became ready no later. -/
theorem earliestReply_le : ∀ (l : List Slot) (sl : Slot) (r : Reply) (n : Nat), sl ∈ l → sl.phase = .ready r n →
    ∃ x rx m, earliestReply l = some (x, rx, m) ∧ m ≤ n := by
  intro l
  induction l with
  | nil => intro _ _ _ h; simp at h
  | cons a l ih =>
    intro sl r n hm hp
    unfold earliestReply
    rcases List.mem_cons.mp hm with rfl | hm
    · rw [hp]; dsimp only
      cases he : earliestReply l with
      | none => exact ⟨_, _, _, rfl, le_refl _⟩
      | some b =>
        obtain ⟨b, rb, tb⟩ := b
        dsimp only
        by_cases ht : n ≤ tb
        · rw [if_pos ht]; exact ⟨_, _, _, rfl, le_refl _⟩
        · rw [if_neg ht]; exact ⟨_, _, _, rfl, by omega⟩
    · obtain ⟨x, rx, m, he, hle⟩ := ih sl r n hm hp
      split
      · rename_i r' t' _
        rw [he]; dsimp only
        by_cases ht : t' ≤ m
        · rw [if_pos ht]; exact ⟨_, _, _, rfl, by omega⟩
        · rw [if_neg ht]; exact ⟨_, _, _, rfl, hle⟩
      · exact ⟨_, _, _, he, hle⟩

/-- Where no reply is READY, none is found. -/
theorem earliestReply_none (l : List Slot) (h : ∀ sl ∈ l, ∀ r n, sl.phase ≠ .ready r n) : earliestReply l = none := by
  induction l with
  | nil => rfl
  | cons a l ih =>
    unfold earliestReply
    split
    · rename_i r t hp; exact absurd hp (h a (by simp) r t)
    · exact ih fun sl hs => h sl (by simp [hs])

/-! ## Requests (R181) -/

theorem nextToHand_none (lc : Lc) :
    ∀ (rest earlier : List Slot), (∀ sl ∈ rest, sl.phase ≠ .waiting) → nextToHand lc earlier rest = none := by
  intro rest
  induction rest with
  | nil => intro _ _; rfl
  | cons a l ih =>
    intro e h
    unfold nextToHand
    have : a.waits = false := by simp [Slot.waits, h a (by simp)]
    rw [this]; simp only [Bool.false_and]
    rw [if_neg (by simp)]
    exact ih _ fun sl hs => h sl (by simp [hs])

/-- Where no request waits, none is handed. -/
theorem handWaiting_none (n : Nat) (s : State) (h : ∀ sl ∈ s.lc.slots, sl.phase ≠ .waiting) : handWaiting n s = s := by
  cases n with
  | zero => rfl
  | succ n => unfold handWaiting; rw [nextToHand_none _ _ _ h]

/-- A request whose owner only answers, over an update `u` that leaves the slots alone, is the reply over that update. -/
theorem exec_request_replied {k : ReqKind} {tag : Byte} {p : List Byte} {s : State} {r : Reply} {u : State → State}
    (h : Ready k s) (hp : p.length = payloadLength k)
    (hs : serve (freePlace s.lc.slots) k p (inSlot k tag p .taken s) =
      answer (freePlace s.lc.slots) r (inSlot k tag p .taken (u s)))
    (hu : (u s).lc.slots = s.lc.slots) :
    exec (requestCommand k tag p) s = .next (replied k tag p r (u s)) := by
  rw [exec_request_ready h hp, hs]
  have := answer_inSlot (k := k) (tag := tag) (p := p) (s := u s) r (by rw [hu]; exact h.2.2.1)
  rw [hu] at this
  rw [this]

/-! ## Part modes and grants -/

/-- A choice that gives the mode in force changes nothing (R159). -/
theorem chooseMode_idle {s : State} (h : modeWanted s = s.spu.mode) : chooseMode s = s := by
  unfold chooseMode; rw [if_pos h]

/-- A grant is within what remains. -/
theorem grantOf_le (left : Nat) (c : Option Claim) : grantOf left c ≤ left := by
  unfold grantOf
  split
  · exact Nat.zero_le _
  · split
    · exact Nat.min_le_right _ _
    · exact Nat.zero_le _

/-- The grants never exceed the capacity (R114). -/
theorem grantTable_le (capacity : Nat) (base latch pen : Option Claim) :
    (grantTable capacity base latch pen).base + (grantTable capacity base latch pen).latch +
      (grantTable capacity base latch pen).pen ≤ capacity := by
  have hb := grantOf_le capacity base
  have hl := grantOf_le (capacity - grantOf capacity base) latch
  have hp := grantOf_le (capacity - grantOf capacity base - grantOf (capacity - grantOf capacity base) latch) pen
  unfold grantTable
  dsimp only
  omega

/-! ## Commands in a reset (R176) -/

/-- A command that the part takes only while it runs does nothing while NRST holds a reset. -/
theorem whileRunning_held {s : State} (f : State → State) (h : s.held.isSome = true) (hn : s.nrst = .asserted) :
    whileRunning f s = s := by
  obtain ⟨k, hk⟩ := Option.isSome_iff_exists.mp h
  simp only [whileRunning, hk, hn]

/-- A SOFT reset that still stands ends before a command that is no reset cause. -/
theorem whileRunning_soft {s : State} {k : ResetKind} (f : State → State) (h : s.held = some k)
    (hn : s.nrst = .released) : whileRunning f s = f (endReset k s) := by simp only [whileRunning, h, hn]

/-- A change of a pin meets a running part, a held one, or a SOFT reset that has just ended. -/
theorem onInput_cases (record f : State → State) (s : State) :
    (s.held = none ∧ onInput record f s = f s) ∨
    (∃ k, s.held = some k ∧ s.nrst = .asserted ∧ onInput record f s = record s) ∨
    (∃ k, s.held = some k ∧ s.nrst = .released ∧
      (onInput record f s = record s.nextChoice ∨ onInput record f s = f (endReset k s.nextChoice))) := by
  unfold onInput; split
  · rename_i h; exact .inl ⟨h, rfl⟩
  · rename_i h hn; exact .inr (.inl ⟨_, h, hn, rfl⟩)
  · rename_i h hn
    refine .inr (.inr ⟨_, h, hn, ?_⟩)
    split
    · exact .inl rfl
    · exact .inr rfl

/-- NRST meets a SOFT reset that still stands, or one that has just ended. -/
theorem assertReset_soft {s : State} {k : ResetKind} (h : s.held = some k) (hn : s.nrst = .released) :
    assertReset s = holdReset .pin { s.nextChoice with nrst := .asserted } ∨
    assertReset s = holdReset .pin { endReset k s.nextChoice with nrst := .asserted } := by
  simp only [assertReset, h, hn]; split
  · exact .inl rfl
  · exact .inr rfl

/-- The part is out of reset when a reset has ended. -/
theorem endReset_held (k : ResetKind) (s : State) : (endReset k s).held = none := by
  have keeps : ∀ c u, (startBlocks c u).held = u.held := fun c u =>
    congrArg Prod.snd ((startBlocks_changes c u).same .reset (by decide))
  exact keeps _ _

/-- A SOFT reset has ended when the next command comes, or still stands then. -/
theorem softReset_cases (s : State) (hn : s.nrst = .released) :
    softReset s = endReset .soft s.nextChoice ∨ softReset s = holdReset .soft s.nextChoice := by
  unfold softReset; rw [if_neg (by simp [hn])]; split
  · exact .inl rfl
  · exact .inr rfl

end Sys2Proof.Machine
end

