-- ==== Sys2Proof/WellFormed.lean ====
section
/-! DEFINITION. The checks on a command's operands: the ranges that the records and frames of the manual give them. -/

namespace Sys2Proof

/-- An axis value in −32768..32767 (R1). -/
def axisOk (a : Int) : Bool := decide (-32768 ≤ a) && decide (a ≤ 32767)

/-- A payload of 0..124 bytes (10.1). -/
def payloadOk (p : List Byte) : Bool := decide (p.length ≤ 124)

/-- A body length out of range (R178). -/
def badLengthByte (b : Byte) : Bool := decide (b.toNat < 2) || decide (126 < b.toNat)

/-- A KIND that is no request kind (R180, R193). -/
def unknownKindOk (kind : Byte) : Bool := decide (kind.toNat = 0) || decide (0x1D < kind.toNat)

/-- The SUPPLY trigger has no timer (8.2). -/
def triggerOk (t : Trigger) : Bool := decide (t ≠ .supply)

/-- Are the operands of a command within the ranges the manual gives them. -/
def Instr.wellFormed : Instr → Bool
  | .powerOn | .brownout | .nrstAsserted | .nrstReleased => true
  | .displayPeriodExpiry | .displayReadFailure _ | .displayReadTimeout => true
  | .displayReadSample x y z => axisOk x && axisOk y && axisOk z
  | .magnetLevelChange _ _ | .hallDebounceExpiry _ => true
  | .bpresChange _ | .baseSettleTimerExpiry | .baseGone | .queryTimerExpiry | .cyclingTimerExpiry => true
  | .ident _ _ draw revision => decide (draw ≤ 255) && decide (revision ≤ 255)
  | .baseSample x y z => axisOk x && axisOk y && axisOk z
  | .quiesced | .quiesceTimerExpiry | .baseLinkRecordDiscard => true
  | .dbtnChange _ | .buttonHoldExpiry | .consentTimerExpiry | .grantWaitExpiry | .lswChange _ => true
  | .openCheckExpiry | .releaseWindowExpiry | .closeCheckExpiry | .blinkTimerExpiry => true
  | .scanPeriodExpiry | .scanCompletion _ _ _ => true
  | .pdetChange _ | .penSettleTimerExpiry | .penRemoval | .pollTimerExpiry | .responseTimerExpiry => true
  | .penStatus _ _ | .prechargeTimerExpiry | .safetyTimerExpiry => true
  | .triggerTimerExpiry t => triggerOk t
  | .lidConfirmTimerExpiry | .wakeTimerExpiry | .gapTimerExpiry | .uptimeTick => true
  | .lengthByteAbandon b => badLengthByte b
  | .rxGapTimeout | .frameReject | .txFrameDone | .rxdByte _ => true
  | .unknownKindFrame kind _ p => unknownKindOk kind && payloadOk p
  | .commitWriteDone _ | .commitVerifyDone => true
  | .getVectors _ p | .getPosture _ p | .setRotationLock _ p | .setTuning _ p | .listBases _ p | .forgetBase _ p
  | .setBaseOffset _ p | .acceptBase _ p | .setBasePolicy _ p | .calibrateHinge _ p | .detachConsent _ p
  | .requestDetach _ p | .setDetachPolicy _ p | .getSupply _ p | .getPen _ p | .setPenCharging _ p | .hostState _ p
  | .getSleep _ p | .setSleepPolicy _ p | .setWakeCauses _ p | .clearConditions _ p | .getConditions _ p
  | .getHistory _ p | .identify _ p | .subscribe _ p | .unsubscribe _ p | .resetPart _ p | .saveSettings _ p
  | .restoreDefaults _ p => payloadOk p

end Sys2Proof
end

