-- ==== Sys2Proof/Tests/Slice0.lean ====
section
/-! SUPPORT. Tests: the refusals of WellFormed, one or two steps of each family against the worked examples and tables of
the manual, and for each statement with hypotheses a state and operands that meet them. -/

namespace Sys2Proof.Tests

open Sys2Proof Sys2Proof.Machine Sys2Proof.Claims

/-! ## WellFormed refuses each ill-formed operand -/

theorem test_wf_axis : (Instr.displayReadSample 32768 0 0).wellFormed = false := by decide
theorem test_wf_axis_low : (Instr.baseSample 0 (-32769) 0).wellFormed = false := by decide
theorem test_wf_payload : (Instr.getPen 1 (List.replicate 125 0)).wellFormed = false := by
  simp [Instr.wellFormed, payloadOk]
theorem test_wf_draw : (Instr.ident 1 2 256 1).wellFormed = false := by decide
theorem test_wf_revision : (Instr.ident 1 2 100 256).wellFormed = false := by decide
theorem test_wf_trigger : (Instr.triggerTimerExpiry .supply).wellFormed = false := by decide
theorem test_wf_length_byte : (Instr.lengthByteAbandon 2).wellFormed = false := by decide
theorem test_wf_unknown_kind : (Instr.unknownKindFrame 0x1D 0 []).wellFormed = false := by decide
theorem test_wf_takes_good : (Instr.setTuning 1 (List.replicate 18 3)).wellFormed = true := by decide
theorem test_no_word_spells_a_command : decodeTableWord 8 0 = none := by decide

/-! ## States to start from -/

/-- The state after one command. -/
def after (c : Instr) (s : State) : State :=
  match exec c s with
  | .next t => t
  | .fault _ => s
  | .refused _ => s

abbrev start : State := State.reset

/-- A read is in flight. -/
def reading : State := { start with sfe := { Sfe.reset with reader := .reading, readLimit := some 10 } }

/-- A read is in flight after two failures. -/
def failing : State := { reading with sfe := { reading.sfe with failures := 2 } }

/-- The display reads have failed: DSENS_FAULT is live. -/
def faulted : State :=
  { reading with
    sfe := { reading.sfe with failures := 3, fault := true }
    pe := { Pe.reset with halt := true, orient := { Pe.reset.orient with state := .halted } }
    cm := { Cm.reset with live := 1, latched := 1 } }

/-- Base 0xA1 is attached and P is LAPTOP, as in Case A of Chapter 2. -/
def docked : State :=
  { start with
    settings := { defaultSettings with table := [⟨0xA1, 0x21, 24⟩, ⟨0xB2, 0x22, 0⟩] }
    sfe :=
      { Sfe.reset with
        view := .running, lastArrival := some 0, dFilter := some ⟨120, 3650, -1850⟩, bFilter := some ⟨-60, -410, 4060⟩ }
    pe :=
      { Pe.initial with
        posture := { state := .locked, value := .laptop, pending := none, run := 0 }, fresh := true
        theta := some 942, thetaCurrent := true, serial := some 0xA1, offset := 24 }
    bm :=
      { Bm.reset with
        state := .attached, bpres := .asserted, bpwr := true, identity := some ⟨0xA1, 0x21, 150, 1⟩, active := some 0xA1 }
    rba := { Rba.reset with base := some ⟨150, 150⟩, grants := { base := 150, latch := 0, pen := 0 } }
    spu := { Spu.initial with view := { PostureView.initial with posture := .laptop, lock := .locked, fresh := true } } }

/-- The docked part in one of BM's other states, with its detach record. -/
def detaching (st : BmState) (d : Det) : State :=
  { docked with bm := { docked.bm with state := st }, det := d }

/-- Consent has been asked for. -/
def asked : State :=
  detaching .detachAsked
    { Det.reset with origin := some .button, path := some .host, deadline := .consent, timer := some 2000 }

/-- The latch is energised and has not opened yet. -/
def openingDet : Det :=
  { Det.reset with
    origin := some .button, path := some .host, deadline := .openCheck, timer := some 150, energised := true, lsol := true }

/-- The part with the latch energised. -/
def opening : State :=
  { detaching .releasing openingDet with
    rba :=
      { Rba.reset with
        base := some ⟨150, 150⟩, latch := some ⟨250, 250⟩, grants := { base := 150, latch := 250, pen := 0 } } }

/-- The latch is open and the window runs. -/
def window : State :=
  { opening with det := { openingDet with deadline := .window, timer := some 3000, lsw := .opened } }

/-- The latch is being closed after a timeout. -/
def closing : State :=
  detaching .closing
    { Det.reset with
      origin := some .button, path := some .host, deadline := .closeCheck, timer := some 150, closing := some .timedOut
      lsw := .opened }

/-- A base asks to be identified: QUERY_1 is out. -/
def identifying : State :=
  { start with
    bm :=
      { Bm.reset with
        state := .identifying, bpres := .asserted, bpwr := true, phase := some .query1, queryOut := true
        query := some 500 }
    rba := { Rba.reset with base := some ⟨120, 120⟩, grants := { base := 120, latch := 0, pen := 0 } } }

/-- Base 0xB3 stands refused. -/
def refusedBase : State :=
  { start with
    bm := { Bm.reset with state := .refused, bpres := .asserted, identity := some ⟨0xB3, 0x21, 90, 1⟩ } }

/-- A pen asks to be identified: STATUS_QUERY is out. -/
def penIn : State :=
  { start with
    pdc :=
      { Pdc.reset with
        state := .identifying, pdet := .asserted, outstanding := true, response := some 50 } }

/-- The status of a pen. -/
def pen (cell charge : Nat) : PenStatus := { serial := 7, cell := cell, temp := 25, charge := charge, cellFault := false }

/-- A pen charges at 200 mA. -/
def penCharging : State :=
  { start with
    pdc :=
      { Pdc.reset with
        state := .charge, pdet := .asserted, outstanding := true, response := some 50, last := some (pen 3800 40)
        grant := 200, setpoint := 200, cycleOpen := true }
    rba := { Rba.reset with pen := some ⟨200, 40⟩, grants := { base := 0, latch := 0, pen := 200 } } }

/-- A pen precharges at 40 mA. -/
def penPrecharging : State :=
  { penCharging with
    pdc := { penCharging.pdc with state := .precharge, grant := 40, setpoint := 40 }
    rba := { Rba.reset with pen := some ⟨40, 40⟩, grants := { base := 0, latch := 0, pen := 40 } } }

/-- A pen is topped off at 100 mA. -/
def penTopoff : State :=
  { penCharging with
    now := 5000
    pdc := { penCharging.pdc with state := .topoff, grant := 100, setpoint := 100, runStart := some 1000 }
    rba := { Rba.reset with pen := some ⟨100, 40⟩, grants := { base := 0, latch := 0, pen := 100 } } }

/-- SPU in a state, with the host's view. -/
def hostIs (v : HostView) (st : SpuState) : State := { start with spu := { Spu.reset with host := v, state := st } }

/-- SPU in the second of three wake attempts for the causes LID_OPENED and PEN_REMOVED (the worked example of Chapter 8). -/
def waking : State :=
  { start with
    spu :=
      { Spu.reset with
        host := .suspended, state := .waking, causes := 0b000011, attempt := 2, limit := some 3, wake := some 2000
        hwake := true } }

/-- The link is busy with a frame, and every class is granted. -/
def sendingAll (s : State) : State := { s with lc := { Lc.reset with tx := some (.refusal .frameReject), grant := 0xFF } }

/-- A slot that holds GET_PEN. -/
def slotOf (place : Nat) (ph : SlotPhase) : Slot := { place := place, kind := .getPen, tag := 9, payload := [], phase := ph }

/-- The link while it sends a frame, with these slots. -/
def sendingWith (f : TxFrame) (slots : List Slot) : State := { start with lc := { Lc.reset with tx := some f, slots := slots } }

/-- A base is attached and a display read is in flight. -/
def dockedReading : State := { docked with sfe := { docked.sfe with reader := .reading, readLimit := some 10 } }

/-- The docked part in ASLEEP and WATCH takes the sixth TABLET sample, which the fold magnet decides (R39, R46). -/
def foldedAsleep : State :=
  { dockedReading with
    sfe := { dockedReading.sfe with fold := { MagnetRec.released with raw := .asserted, level := .asserted } }
    pe := { docked.pe with posture := { state := .locked, value := .laptop, pending := some .tablet, run := 5 } }
    settings := { docked.settings with wake := { defaultWake with postureChanged := ⟨.enabled, allPostures⟩ } }
    spu := { docked.spu with host := .suspended, state := .asleep, mode := .watch } }

/-- The reply to RESET_PART leaves. -/
def resetReplied : State :=
  { start with lc := { Lc.reset with
      tx := some (.reply .resetPart 1 { result := .ok, content := .none }), gateClosed := true } }

/-- A SOFT reset still stands. -/
def softHeld : State := { start with held := some .soft }

/-- The base is about to be gone from a state. -/
def going (s : State) : State := { s with bm := { s.bm with bpres := .released, loss := some 20 } }

/-- A request of SPU's waits behind an event frame. -/
def hostWaits : Slot := { place := 0, kind := .hostState, tag := 4, payload := [0], phase := .waiting }

/-- A second request of SPU's waits behind it. -/
def sleepWaits : Slot := { place := 1, kind := .getSleep, tag := 5, payload := [], phase := .waiting }

/-! ## Steps against the manual's examples -/

/-- 10.8, GET_POSTURE: the frame of the worked example, byte by byte. -/
theorem test_get_posture_frame : frameBytes (kindCode .getPosture) 0x21 [] = [0xC3, 2, 5, 0x21, 0xD7] := by decide

/-- 10.8: the reply of the worked example, with its CHECK byte 0x72. -/
theorem test_get_posture_reply :
    wire (.reply .getPosture 0x21
      { result := .ok
        content := .posture
          { posture := .laptop, lock := .locked, fresh := true, theta := some 942, reported := .landscape
            computed := .landscape, rotationLock := false, abstain := .none, sequence := 0x1234
            serial := some 0x00A1B2C3D4E5 } }) =
    [0xC3, 19, 0x85, 0x21, 0, 2, 1, 11, 174, 3, 0, 0, 0, 52, 18, 229, 212, 195, 178, 161, 0, 0x72] := by decide

/-- Case A of Chapter 2. -/
theorem test_case_a : hingeAngle ⟨120, 3650, -1850⟩ ⟨-60, -410, 4060⟩ 24 = 942 ∧ ang 3650 120 = 31 := by decide

/-- Case B of Chapter 2. -/
theorem test_case_b :
    hingeAngle ⟨0, 40, 4090⟩ ⟨0, -30, -4100⟩ 24 = 22 ∧ hingeAngle ⟨0, 40, 4090⟩ ⟨0, -30, -4100⟩ 0 = 5758 := by decide

/-- Cases C and D of Chapter 2. -/
theorem test_case_c_d :
    hingeFloorMet 1024 ⟨4050, 300, 500⟩ ⟨-60, -410, 4060⟩ = false ∧ tilt 1536 .landscape ⟨4050, 300, 500⟩ = .angle 1370 ∧
    tilt 1536 .faceUp ⟨300, 1700, 3700⟩ = .face .faceUp ∧ tilt 1536 .faceUp ⟨300, 1800, 3600⟩ = .angle 155 := by decide

/-- R8: the first plausible sample loads the filter, and R3: the read ends. -/
theorem test_sample_loads_filter :
    (after (.displayReadSample 10 20 4096) reading).sfe.dFilter = some ⟨10, 20, 4096⟩ ∧
    (after (.displayReadSample 10 20 4096) reading).sfe.reader = .idle := by decide

/-- R8, R9: a filter one count below a steady input does not move, one above it falls by the floor of the quotient. -/
theorem test_filter_floor :
    feed 2 (some ⟨0, 100, 4096⟩) ⟨-1, 101, 4099⟩ = ⟨-1, 100, 4096⟩ := by decide

/-- R7: an implausible sample is not fed. -/
theorem test_implausible_not_fed : (after (.displayReadSample 0 0 3583) reading).sfe.dFilter = none := by decide

/-- R2: the period restarts and an idle reader starts a read with 10 ms. -/
theorem test_period : (after .displayPeriodExpiry start).sfe.period = some 40 ∧
    (after .displayPeriodExpiry start).sfe.readLimit = some 30 := by decide

/-- R3: a failure counts. -/
theorem test_failure :
    (after (.displayReadFailure .noAck) reading).sfe.failures = 1 ∧
    (after .displayReadTimeout reading).sfe.failures = 1 := by decide

/-- R17: the hold time is the Hall debounce time of 30 ms; an equal level changes nothing. -/
theorem test_magnet : (after (.magnetLevelChange .lid .asserted) start).sfe.lid.timer = some 30 ∧
    after (.magnetLevelChange .fold .released) start = start := by decide

/-- R35: LIDH forces CLOSED. -/
theorem test_lid_closes :
    (after (.hallDebounceExpiry .lid)
      { docked with sfe := { docked.sfe with lid := { MagnetRec.released with
          raw := .asserted, debounce := .changing, timer := some 30 } } }).pe.posture.value = .closed := by decide

/-- R53: a lock takes the reported orientation as its value. -/
theorem test_rotation_lock :
    (after (.setRotationLock 1 [1]) start).pe.rotationLock = true ∧
    (after (.setRotationLock 1 [2]) start).pe.rotationLock = false := by decide

/-- R58: SET_TUNING clamps k to 4. -/
theorem test_tuning_clamped : (after (.setTuning 1 (List.replicate 18 9)) start).settings.tuning.depth = 4 := by decide

/-- R60: BPRES starts 100 ms; its end powers the base and asks for its identity (R64). -/
theorem test_base_presence :
    (after (.bpresChange .asserted) start).bm.settle = some 100 ∧
    (after .baseSettleTimerExpiry
      { start with bm := { Bm.reset with bpres := .asserted, state := .settling, settle := some 100 } }).btx =
        [.identQuery] := by decide

/-- R64: QUERY_1 without an answer cycles the power, and the cycling ends with QUERY_2. -/
theorem test_query_timer :
    (after .queryTimerExpiry identifying).bm.cycling = some 550 ∧
    (after .cyclingTimerExpiry
      { identifying with bm := { identifying.bm with
          queryOut := false, query := none, phase := some .cycling, cycling := some 550 } }).bm.phase = some .query2 := by
  decide

/-- R66: a new base whose draw the rail cannot grant goes back to POWERING with the claim of its draw. -/
theorem test_ident :
    (after (.ident 0xC4 0x21 255 1) { identifying with rba := { identifying.rba with capacity := 150 } }).bm.state =
      .powering ∧
    (after (.ident 0xC4 0x21 255 1) { identifying with rba := { identifying.rba with capacity := 150 } }).rba.base =
      some ⟨200, 200⟩ := by decide

/-- R63: an answer of revision 16 is ignored. -/
theorem test_ident_revision : after (.ident 0xC4 0x21 90 16) identifying = identifying := by decide

/-- R61: a base that goes while it is being identified leaves ABSENT. -/
theorem test_base_gone :
    (after .baseGone { identifying with bm := { identifying.bm with bpres := .released, loss := some 20 } }).bm =
      Bm.reset := by decide

/-- R10: a base sample is stored and fed while the stream runs, and dropped without a base. -/
theorem test_base_sample :
    (after (.baseSample 0 0 4096) docked).sfe.bRaw = some ⟨0, 0, 4096⟩ ∧
    after (.baseSample 0 0 4096) start = start := by decide

/-- R71: QUIESCED pauses a pausing stream. -/
theorem test_quiesced :
    (after .quiesced { docked with bm := { docked.bm with stream := .pausing, quiesce := some 50 } }).bm.stream =
      .paused ∧
    (after .quiesceTimerExpiry { docked with bm := { docked.bm with stream := .pausing, quiesce := some 50 } }).sfe.view =
      .paused := by decide

theorem test_discard : after .baseLinkRecordDiscard docked = docked := by decide

/-- R77: the offset is clamped to 720, and a change of the active one empties the base filter. -/
theorem test_base_offset :
    (after (.setBaseOffset 1 [1, 0, 0, 0, 0, 0, 0, 0, 4]) docked).pe.offset = 720 ∧
    (after (.setBaseOffset 1 [1, 0, 0, 0, 0, 0, 0, 0, 4]) docked).sfe.bFilter = none := by decide

/-- R76: the entry goes. -/
theorem test_forget_base :
    (after (.forgetBase 1 [0xB2, 0, 0, 0, 0, 0]) docked).settings.table = [⟨0xA1, 0x21, 24⟩] := by decide

/-- R78: a true angle of 930 with θ = 942 and C = 24 makes C = 12. -/
theorem test_calibrate : (after (.calibrateHinge 1 [0xA2, 3]) docked).pe.offset = 12 := by decide

/-- R70: ACCEPT_BASE admits the refused base. -/
theorem test_accept_base : (after (.acceptBase 1 []) refusedBase).settings.table = [⟨0xB3, 0x21, 0⟩] := by decide

/-- R79. -/
theorem test_base_policy : (after (.setBasePolicy 1 [1]) start).settings.basePolicy = .refuse := by decide

/-- R75. -/
theorem test_list_bases : (after (.listBases 1 []) docked).lc.tx.isSome = true := by decide

/-- R81: the button holds for 50 ms. -/
theorem test_button : (after (.dbtnChange .asserted) start).det.hold = some 50 := by decide

/-- R81, R83: a press with a host that takes DETACH events asks for consent for 2000 ms. -/
theorem test_press :
    (after .buttonHoldExpiry
      { sendingAll docked with det := { Det.reset with dbtn := .asserted, debounce := .changing, hold := some 50 } }).det.timer =
      some 2050 := by decide

/-- R85: ALLOW files the latch claim of 250 mA and energises the latch. -/
theorem test_consent :
    (after (.detachConsent 1 [0]) { asked with lc := { Lc.reset with grant := 0xFF } }).det.lsol = true ∧
    (after (.detachConsent 1 [0]) { asked with lc := { Lc.reset with grant := 0xFF } }).rba.grants.latch = 250 := by decide

/-- R86: the default timeout action is DENY. -/
theorem test_consent_timeout : (after .consentTimerExpiry asked).det.outcome = some .consentTimeoutDenied := by decide

/-- R88. -/
theorem test_request_detach : (after (.requestDetach 1 []) docked).bm.state = .releasing := by decide

/-- R89: no grant within 1000 ms is NO_POWER. -/
theorem test_grant_wait :
    (after .grantWaitExpiry
      { opening with det := { openingDet with
          deadline := .grantWait, energised := false, lsol := false, timer := some 1000 } }).det.outcome =
      some .noPower := by decide

/-- R90: the open latch starts the window of 3000 ms. -/
theorem test_latch_opens : (after (.lswChange .opened) opening).det.timer = some 3000 := by decide

/-- R93: a latch that stays shut is LATCH_STUCK with detail 1. -/
theorem test_open_check : (after .openCheckExpiry opening).cm.ring.map (·.detail) = [1] := by decide

/-- R91: without a window there is no end of it. -/
theorem test_window : after .releaseWindowExpiry opening = opening := by decide

/-- R94: a latch that stays open is LATCH_STUCK with detail 2. -/
theorem test_close_check : (after .closeCheckExpiry closing).cm.ring.map (·.detail) = [2] := by decide

theorem test_blink :
    (after .blinkTimerExpiry { start with det := { Det.reset with blink := some 2000 } }).det.blink = none := by decide

/-- R99: both times are clamped. -/
theorem test_detach_policy :
    (after (.setDetachPolicy 1 [1, 0, 1, 0, 255, 255]) start).settings.detach = ⟨.deny, .allow, 500, 5000⟩ := by decide

/-- R101: the next scan. -/
theorem test_scan_period : (after .scanPeriodExpiry start).sm.period = some 200 := by decide

/-- R104, R105: two scans at 3450 mV make LOW, and R111: 400 mA. -/
theorem test_scan :
    (after (.scanCompletion 3450 20 0) start).sm.supplyCandidate = some .low ∧
    (after (.scanCompletion 3450 20 0) { start with sm := { Sm.reset with supplyCandidate := some .low } }).rba.capacity =
      400 := by decide

/-- R110. -/
theorem test_get_supply : (after (.getSupply 1 []) start).lc.tx.isSome = true := by decide

/-- R114: a PEN claim that cannot have its minimum gets nothing. -/
theorem test_grants : grantTable 300 (some ⟨150, 150⟩) (some ⟨250, 250⟩) (some ⟨200, 40⟩) = ⟨150, 0, 150⟩ ∧
    grantTable 150 (some ⟨120, 120⟩) none (some ⟨200, 40⟩) = ⟨120, 0, 0⟩ := by decide

/-- R120: the pen settles for 200 ms, then the first poll. -/
theorem test_pen_presence :
    (after (.pdetChange .asserted) start).pdc.settle = some 200 ∧
    (after .penSettleTimerExpiry
      { start with pdc := { Pdc.reset with state := .settling, pdet := .asserted, settle := some 200 } }).queries = 1 := by
  decide

/-- R122. -/
theorem test_pen_removal :
    (after .penRemoval { penCharging with pdc := { penCharging.pdc with pdet := .released, removal := some 50 } }).rba.pen =
      none := by decide

/-- R123, R125. -/
theorem test_pen_polls :
    (after .pollTimerExpiry { penCharging with pdc := { penCharging.pdc with
        poll := some 1000, outstanding := false, response := none } }).pdc.response = some 1050 ∧
    (after .responseTimerExpiry penIn).pdc.misses = 1 := by decide

/-- R127, R128: 3800 mV is CHARGE at 200 mA, 2999 mV PRECHARGE at 40 mA. -/
theorem test_pen_status :
    (after (.penStatus true (pen 3800 40)) penIn).pdc.setpoint = 200 ∧
    (after (.penStatus true (pen 2999 40)) penIn).pdc.setpoint = 40 := by decide

/-- R138. -/
theorem test_pen_timers :
    (after .safetyTimerExpiry penCharging).pdc.fault = some .safetyTimer ∧
    (after .prechargeTimerExpiry penPrecharging).pdc.fault = some .prechargeTimer := by decide

/-- R140, R143. -/
theorem test_pen_requests :
    (after (.getPen 1 []) penCharging).lc.tx.isSome = true ∧
    (after (.setPenCharging 1 [0, 255, 40, 15, 180, 0]) start).settings.pen = ⟨.enabled, 250, 50, 15, 180⟩ := by decide

/-- The worked example of Chapter 8: RUNNING in WAKING reports the two causes and the two attempts. -/
theorem test_host_state :
    (after (.hostState 1 [0]) (sendingAll waking)).lc.queue = [.wakeReport 0b000011 2] ∧
    (after (.hostState 1 [0]) (sendingAll waking)).spu.hwake = false := by decide

/-- R147, R149. -/
theorem test_trigger :
    (after (.triggerTimerExpiry .lid)
      { start with spu := { Spu.reset with lid := ⟨true, some 500, false⟩ } }).spu.state = .advised := by decide

/-- R153. -/
theorem test_lid_confirm :
    (after .lidConfirmTimerExpiry
      { hostIs .suspended .asleep with spu := { (hostIs .suspended .asleep).spu with lidConfirm := some 300 } }).spu.attempt =
      1 := by decide

/-- R156: the gap, then the next attempt. -/
theorem test_wake :
    (after .wakeTimerExpiry waking).spu.gap = some 2100 ∧
    (after .gapTimerExpiry { waking with spu := { waking.spu with wake := none, gap := some 100, hwake := false } }).spu.attempt =
      3 := by decide

/-- R161 to R163. -/
theorem test_sleep_requests :
    (after (.getSleep 1 []) start).lc.tx.isSome = true ∧
    (after (.setSleepPolicy 1 [0, 0, 0, 244, 1, 136, 19, 44, 1, 208, 7, 9, 1]) start).settings.sleep.attemptLimit = 5 := by
  decide

theorem test_wake_causes :
    (after (.setWakeCauses 1 [1, 0, 0, 128, 0, 0, 0, 0, 0, 0, 0, 0]) start).settings.wake = defaultWake := by decide

/-- R167, R172, R174, R175. -/
theorem test_conditions :
    (after (.clearConditions 1 [1, 0, 0]) faulted).cm.latched = 1 ∧
    (after (.getConditions 1 []) start).lc.tx.isSome = true ∧ (after (.getHistory 1 [0]) start).lc.tx.isSome = true ∧
    (after .uptimeTick start).cm.uptime = 1 := by decide

/-- R178: a byte that is no length is examined again in HUNT; at the gap's expiry more than 5 ms have passed. -/
theorem test_assembler :
    5 < (after .rxGapTimeout (after (.rxdByte 0xC3) start)).now ∧
    (after (.rxdByte 0xC3) { start with lc := { Lc.reset with asm := { Asm.hunt with state := .length } } }).lc.asm.state =
      .length ∧
    (after (.lengthByteAbandon 1) { start with lc := { Lc.reset with asm := { Asm.hunt with state := .length } } }).lc.asm.state =
      .hunt ∧
    (after .rxGapTimeout { start with lc := { Lc.reset with asm := { Asm.hunt with state := .body, gap := some 5 } } }).lc.asm.state =
      .hunt := by decide

/-- R179, R180, R182. -/
theorem test_refusals :
    (after .frameReject start).lc.tx = some (.refusal .frameReject) ∧
    (after (.unknownKindFrame 0x1E 4 []) start).lc.tx = some (.refusal (.unknownKind 0x1E 4)) ∧
    (after (.getPen 4 [0]) start).lc.tx = some (.refusal (.badLength .getPen 4)) := by decide

/-- R183: the end of a frame frees the transmitter. -/
theorem test_frame_done : (after .txFrameDone (sendingAll start)).lc.tx = none := by decide

/-- R176, R191: after the reply to RESET_PART the SOFT reset has ended or still stands. -/
theorem test_soft_reset :
    (after .txFrameDone resetReplied).cm.cause = .soft ∨ (after .txFrameDone resetReplied).held = some .soft :=
  (softReset_cases { resetReplied with lc := freeSent resetReplied.lc } rfl).imp
    (fun h => (congrArg (·.cm.cause) h).trans (by decide)) (fun h => (congrArg (·.held) h).trans (by decide))

/-- R176: NRST during a SOFT reset makes it PIN, and a millisecond later it has ended. -/
theorem test_soft_reset_extended :
    (after .nrstAsserted softHeld).held = some .pin ∧ (idle softHeld).cm.cause = .soft := by
  refine ⟨?_, by decide⟩
  change (assertReset softHeld).held = some .pin
  rcases assertReset_soft (s := softHeld) rfl rfl with h | h <;> rw [h]
  · rfl
  · simp only [holdReset, endReset_held]; rfl

/-- R185, R186, R191. -/
theorem test_link_requests :
    (after (.subscribe 1 [2, 0, 0x35]) start).lc.grant = 0x35 ∧ (after (.subscribe 1 [3, 0, 0x35]) start).lc.grant = 0 ∧
    (after (.unsubscribe 1 [0]) (sendingAll start)).lc.grant = 0 ∧ (after (.resetPart 1 []) start).lc.gateClosed = true ∧
    (after (.identify 1 []) start).lc.tx =
      some (.reply .identify 1 { result := .ok, content := .identity 4610 2 3 0 .powerOn 0 }) := by decide

/-- R193: the kept codes 1 and 9 as a set of two bytes, bit c − 1 for code c. -/
theorem test_kept_codes :
    (contentLayout (.cleared 0b100000001#14 0#14)).take 2 = [0x01, 0x01] := rfl

/-- R16, R56. -/
theorem test_records :
    (after (.getVectors 1 []) start).lc.tx.isSome = true ∧ (after (.getPosture 1 []) start).lc.tx.isSome = true := by decide

/-- R195, R197: a save starts a commit over the working settings, and the comparison ends it. -/
theorem test_save :
    (after (.saveSettings 1 []) start).ss.snapshot = some defaultSettings ∧
    (after (.commitWriteDone none)
      { start with ss := { start.ss with
          state := .writing, attempt := some 1, snapshot := some defaultSettings } }).ss.state = .verifying ∧
    (after .commitVerifyDone
      { start with ss := { start.ss with
          state := .verifying, attempt := some 1, snapshot := some defaultSettings } }).ss.state = .idle := by decide

/-- R198: the defaults replace the settings but not the table. -/
theorem test_restore_defaults :
    (after (.restoreDefaults 1 []) { docked with settings := { docked.settings with basePolicy := .refuse } }).settings =
      docked.settings := by decide

/-- R176, R177, R194. -/
theorem test_resets :
    (after .powerOn docked).cm.cause = .powerOn ∧ (after .brownout docked).bm.settle = some 100 ∧
    (after .nrstAsserted docked).held = some .pin ∧
    (after .nrstReleased { start with nrst := .asserted, held := some .pin }).cm.cause = .pin ∧
    (after .brownout { start with nrst := .asserted, held := some .powerOn }).held = some .brownout := by decide

/-! ## The hypotheses of the statements can be met

One theorem for each statement that has hypotheses, with a state for each of its clauses; a conjunction that names one state
meets the common hypotheses and the clause's own together. -/

theorem witness_StepTakesFront : ({ start with pending := [.uptimeTick, .frameReject] } : State).pending =
    .uptimeTick :: [.frameReject] := by decide

theorem witness_IdleStepIsOneMillisecond :
    (penPrecharging.pending = [] ∧ penPrecharging.held = none ∧ penPrecharging.pdc.cycleOpen = true ∧
      PdcState.charging penPrecharging.pdc.state = true ∧ penPrecharging.pdc.state = .precharge) ∧
    (start.pending = [] ∧ start.held = none ∧ PdcState.charging start.pdc.state = false) ∧
    (({ start with nrst := .asserted, held := some .pin } : State).pending = [] ∧
      ({ start with nrst := .asserted, held := some .pin } : State).held.isSome = true) ∧
    (softHeld.pending = [] ∧ softHeld.held = some .soft ∧ softHeld.nrst = .released) := by decide

theorem witness_HeldPartTakesPinsAndResetsOnly :
    (({ docked with held := some .pin, nrst := .asserted } : State).held.isSome = true ∧
      heldTakes (.getPen 1 []) = false) ∧
    (softHeld.held = some .soft ∧ softHeld.nrst = .released ∧ Instr.getPen 1 [] ≠ .baseLinkRecordDiscard) ∧
    (pinRecorded (.lswChange .opened)).isSome = true := by decide

theorem witness_RequestIsHandedAtOnce :
    (Ready .getPen start ∧ ([] : List Byte).length = payloadLength .getPen) ∧
    (Ready .setPenCharging { start with lc := { Lc.reset with slots := [slotOf 0 .taken, slotOf 1 .sending, slotOf 3 .taken] } } ∧
      (List.replicate 6 (0 : Byte)).length = payloadLength .setPenCharging) ∧
    (Ready .hostState waking ∧ [(0 : Byte)].length = payloadLength .hostState) := by
  unfold Ready; decide

theorem witness_RequestWaitsInItsSlot :
    (∀ s ∈ [sendingWith (.event false .adviceWithdrawn) [], sendingWith (.refusal .frameReject) [slotOf 0 .waiting],
      { start with lc := { Lc.reset with gateClosed := true } }], s.held = none ∧ s.lc.slots.length < 4) ∧
    ([(2 : Byte)].length = payloadLength .hostState ∧
      sendingEvent (sendingWith (.event false .adviceWithdrawn) []).lc = true) ∧
    (([] : List Byte).length = payloadLength .getPen ∧
      ∃ sl ∈ (sendingWith (.refusal .frameReject) [slotOf 0 .waiting]).lc.slots,
        sl.phase = .waiting ∧ kindOwner sl.kind = kindOwner .getPen) ∧
    ({ start with lc := { Lc.reset with gateClosed := true } } : State).lc.gateClosed = true := by decide

theorem witness_FramesThatTheLinkRefuses :
    (start.held = none ∧ kindOf (0x1E : Byte).toNat = none ∧ kindOf (0 : Byte).toNat = none) ∧
    ([0] : List Byte).length ≠ payloadLength .getPen ∧
    (4 ≤ [slotOf 0 .taken, slotOf 1 .taken, slotOf 2 .taken, slotOf 3 .taken].length ∧
      ([] : List Byte).length = payloadLength .getPen) ∧
    ({ start with lc := { Lc.reset with refusal := some ⟨.frameReject, 0, false⟩ } } : State).lc.refusal.isSome = true := by
  decide

theorem witness_ReceiveAssemblerTakesBytes :
    (start.held = none ∧ start.lc.asm.state = .hunt ∧ start.lc.asm.gap = none) ∧
    (2 ≤ (2 : Byte).toNat ∧ (126 : Byte).toNat ≤ 126 ∧ (1 : Byte).toNat < 2 ∧ 126 < (127 : Byte).toNat) ∧
    ((0xD7 : Byte) = BitVec.ofNat 8 (255 - 40 % 256) ∧ (0xD6 : Byte) ≠ BitVec.ofNat 8 (255 - 40 % 256) ∧
      ({ state := .check, expected := 2, body := [5, 0x21], sum := 40, gap := some 5 } : Asm).body = 5 :: 0x21 :: []) := by
  decide

theorem witness_FrameBytesMakeTheRequest :
    start.held = none ∧ start.lc.asm.state = .hunt ∧ ([] : List Byte).length ≤ 124 ∧
    (List.replicate 124 (1 : Byte)).length ≤ 124 := by simp [start, State.reset, Lc.reset, Asm.hunt]

theorem witness_FrameEndFreesItsSlot :
    (∀ f ∈ [TxFrame.reply .getPen 9 { result := .ok, content := .none }, .refusal .frameReject, .event true .adviceWithdrawn,
        .reply .resetPart 9 { result := .ok, content := .none }],
      (sendingWith f [slotOf 0 .sending]).held = none ∧ (sendingWith f [slotOf 0 .sending]).lc.tx = some f ∧
      (sendingWith f [slotOf 0 .sending]).nrst = .released ∧
      ∀ sl ∈ (sendingWith f [slotOf 0 .sending]).lc.slots, sl.phase ≠ .waiting) ∧
    (start.held = none ∧ start.lc.tx = none) ∧
    ((sendingWith (.event true .adviceWithdrawn) [hostWaits]).held = none ∧
      (sendingWith (.event true .adviceWithdrawn) [hostWaits]).lc.slots = [hostWaits] ∧
      (sendingWith (.event true .adviceWithdrawn) [hostWaits]).lc.gateClosed = false ∧
      (sendingWith (.event true .adviceWithdrawn) [hostWaits]).lc.refusal = none ∧
      hostWaits.kind = .hostState ∧ hostWaits.phase = .waiting ∧ hostViewOf (u8 hostWaits.payload 0) = some .running) := by
  decide

/-- The boundary of O10's second case: two requests of SPU's owner queue wait behind an event frame. -/
theorem witness_FrameEndFreesItsSlot_queued :
    lawSlots (sendingWith (.event true .adviceWithdrawn) [hostWaits, sleepWaits]) ∧
    (sendingWith (.event true .adviceWithdrawn) [hostWaits, sleepWaits]).lc.gateClosed = false ∧
    hostStateLeads (sendingWith (.event true .adviceWithdrawn) [hostWaits, sleepWaits]).lc.slots := by
  refine ⟨by unfold lawSlots; decide, rfl, rfl, by decide⟩

theorem witness_TransmitterChoosesByReadiness :
    start.lc.tx = none ∧
    (⟨0, .getPen, 9, [], .ready { result := .ok, content := .none } 3⟩ : Slot) ∈
      [slotOf 1 .taken, ⟨0, .getPen, 9, [], .ready { result := .ok, content := .none } 3⟩] ∧
    (∀ sl ∈ [slotOf 1 .taken], sl.phase = .taken) ∧
    ({ Lc.reset with refusal := some ⟨.frameReject, 0, false⟩ } : Lc).refusal = some ⟨.frameReject, 0, false⟩ ∧
    ({ Lc.reset with queue := [.adviceWithdrawn] } : Lc).queue = .adviceWithdrawn :: [] := by decide

/-- A queue of 24 occurrences. -/
def fullQueue : List Event := List.replicate 24 .adviceWithdrawn

/-- Vectors of the display alone. -/
def vectorsOf : VectorsRecord := { displayRaw := none, displayFiltered := none, baseRaw := none, baseFiltered := none }

theorem witness_OffersEnterTheEventQueue :
    ((sendingAll start).lc.tx.isSome = true ∧
      bitHas (sendingAll start).lc.grant Event.adviceWithdrawn.kind.cls.idx = true) ∧
    bitHas start.lc.grant Event.adviceWithdrawn.kind.cls.idx = false ∧
    ([.adviceWithdrawn, .vectors vectorsOf] : List Event) = [.adviceWithdrawn] ++ .vectors vectorsOf :: [] ∧
    ((Event.vectors vectorsOf).kind.isState = true ∧ ∀ y ∈ [Event.adviceWithdrawn] ++ [], y.kind ≠ .vectors) ∧
    (24 ≤ fullQueue.length ∧ (∀ y ∈ fullQueue, y.kind ≠ .vectors) ∧ Event.adviceWithdrawn.kind ≠ .vectors) := by decide

theorem witness_StepKeepsQueueLaw : lawQueue { start with lc := { Lc.reset with queue := fullQueue } } := by
  unfold lawQueue noRepeats; decide

theorem witness_StepKeepsHoldAndSlotLaws :
    lawHold (sendingWith (.event false .adviceWithdrawn) []) ∧
    lawSlots (sendingWith (.refusal .frameReject) [slotOf 2 .taken, slotOf 0 .waiting]) := by
  unfold lawHold lawSlots; decide

/-- A save waits for its commit while a HOST_STATE waits for the end of an event frame. -/
def savingAndWaiting : State :=
  let s := sendingWith (.event true .adviceWithdrawn) [slotOf 3 .taken, hostWaits, sleepWaits]
  { s with ss := { s.ss with waiting := [⟨3, .running⟩] } }

theorem witness_StepKeepsHoldAndSlotLaws_waiting :
    lawSlots savingAndWaiting ∧ lawSaves savingAndWaiting ∧ lawWaiting savingAndWaiting := by
  refine ⟨by unfold lawSlots; decide, by unfold lawSaves; decide, fun _ => ⟨⟨rfl, by decide⟩, fun _ => rfl⟩⟩

theorem witness_LinkRequests : Ready .subscribe start ∧ Ready .identify docked ∧ Ready .resetPart docked := by
  unfold Ready; decide

theorem witness_UnsubscribeEmptiesTheGrant : Ready .unsubscribe (sendingAll docked) := by unfold Ready; decide

theorem witness_SensingBaseAndPenReplies :
    Ready .getPosture docked ∧ Ready .getVectors docked ∧ Ready .listBases asked ∧ Ready .getSupply opening ∧
    Ready .getPen penCharging := by unfold Ready; decide

theorem witness_SleepAndConditionReplies :
    Ready .getSleep waking ∧ Ready .getConditions faulted ∧ Ready .getHistory faulted := by unfold Ready; decide

theorem witness_DisplayPeriodExpiry :
    (start.held = none ∧ start.sfe.period = some 20) ∧ (reading.held = none ∧ reading.sfe.period = some 20) := by decide

theorem witness_DisplaySampleIsProcessed :
    (∀ s ∈ [dockedReading, foldedAsleep], s.held = none ∧ s.sfe.reader = .reading ∧ s.sfe.discard = false ∧
      s.sfe.fault = false ∧ s.spu.mode ≠ .halt) ∧
    dockedReading.spu.state ≠ .asleep ∧
    (foldedAsleep.spu.state = .asleep ∧ foldedAsleep.settings.wake.postureChanged.enable = .enabled ∧
      bitHas foldedAsleep.settings.wake.postureChanged.mask Posture.tablet.code = true ∧
      (noticed
        { raw := ⟨0, 0, 4096⟩, plausible := true, display := some ⟨0, 0, 4096⟩, status := .fresh
          base := foldedAsleep.sfe.bFilter, lid := .released, fold := .asserted }
        foldedAsleep.settings.tuning foldedAsleep.pe).posture.value = .tablet ∧
      foldedAsleep.pe.posture.value = .laptop ∧ foldedAsleep.bm.stream = .running) := by decide

theorem witness_RecoveryEndsTheHalt :
    faulted.held = none ∧ faulted.sfe.reader = .reading ∧ faulted.sfe.discard = false ∧ faulted.sfe.fault = true ∧
    faulted.spu.mode ≠ .halt := by decide

theorem witness_DisplayReadFailures :
    ({ reading with sfe := { reading.sfe with discard := true } } : State).sfe.discard = true ∧
    (reading.held = none ∧ reading.sfe.discard = false ∧ reading.sfe.reader = .reading ∧ reading.sfe.failures + 1 < 3 ∧
      reading.sfe.readLimit = some 10) ∧
    (3 ≤ failing.sfe.failures + 1 ∧ failing.sfe.fault = false ∧ failing.sfe.reader = .reading ∧
      failing.sfe.discard = false ∧ failing.sfe.readLimit = some 10) ∧
    (start.sfe.discard = false ∧ start.sfe.reader ≠ .reading) := by decide

/-- A magnet input in the middle of a change. -/
def changing (l : Level) : MagnetRec := { MagnetRec.released with raw := l, debounce := .changing, timer := some 30 }

theorem witness_MagnetInputsAreDebounced :
    (start.held = none ∧ Level.asserted ≠ (magnetRec .lid start.sfe).raw ∧ (magnetRec .lid start.sfe).debounce = .steady ∧
      Level.released = (magnetRec .fold start.sfe).raw ∧ (magnetRec .fold start.sfe).timer = none) ∧
    (magnetRec .fold { Sfe.reset with fold := changing .asserted }).timer = some 30 ∧
    (magnetRec .fold { Sfe.reset with fold := changing .asserted }).debounce = .changing := by decide

/-- The docked part whose lid is about to be taken as shut. -/
def lidComing : State := { docked with sfe := { docked.sfe with lid := changing .asserted } }

/-- The closed part whose lid is about to be taken as open. -/
def lidGoing : State :=
  { docked with
    sfe := { docked.sfe with lid := { changing .released with level := .asserted } }
    pe := { docked.pe with situation := .lid, posture := { state := .held, value := .closed, pending := none, run := 0 } } }

/-- The same in ASLEEP, with a lid-confirm time of 0. -/
def lidGoingAsleep : State :=
  { lidGoing with
    settings := { docked.settings with sleep := { docked.settings.sleep with lidConfirm := 0 } }
    spu :=
      { docked.spu with
        host := .suspended, state := .asleep, mode := .halt, lid := ⟨true, none, true⟩
        view := { docked.spu.view with posture := .closed, lock := .held } } }

theorem witness_LidMovesReachTheirOwners :
    (lidComing.held = none ∧ lidComing.sfe.lid.timer = some 30 ∧ lidComing.sfe.lid.raw = .asserted ∧
      lidComing.pe.situation ≠ .lid) ∧
    (lidGoing.held = none ∧ lidGoing.sfe.lid.timer = some 30 ∧ lidGoing.sfe.lid.raw = .released ∧
      lidGoing.pe.situation = .lid ∧ BmState.hinged lidGoing.bm.state = true ∧ lidGoing.spu.state = .awake) ∧
    (lidComing.spu.lid.holds =
        decide (lidComing.settings.sleep.lid = .enabled ∧ lidComing.pe.posture.value = .closed) ∧
      lidComing.pe.posture.value ≠ .closed ∧ (lidComing.settings.wake.lidOpened.enable = .enabled)) ∧
    (lidGoingAsleep.spu.state = .asleep ∧ lidGoingAsleep.settings.wake.lidOpened.enable = .enabled ∧
      lidGoingAsleep.settings.sleep.lidConfirm = 0 ∧
      bitHas lidGoingAsleep.settings.wake.lidOpened.mask lidGoingAsleep.pe.posture.value.code = true ∧
      bitHas lidGoingAsleep.settings.wake.lidOpened.mask Posture.unknown.code = true ∧
      lidGoingAsleep.spu.lid.holds =
        decide (lidGoingAsleep.settings.sleep.lid = .enabled ∧ lidGoingAsleep.pe.posture.value = .closed)) := by decide

theorem witness_AngleArithmetic : (0 : Int) < 4060 ∧ ((-1850 : Int) ≠ 0 ∨ (3650 : Int) ≠ 0) := by decide

theorem witness_RotationLockRequest :
    Ready .setRotationLock docked ∧ (1 : Byte).toNat ≤ 1 ∧ 1 < (2 : Byte).toNat := by unfold Ready; decide

theorem witness_TuningRequest :
    Ready .setTuning docked ∧ (List.replicate 18 (0xFF : Byte)).length = 18 ∧ tuningInRange defaultTuning := by
  unfold Ready tuningInRange; decide

/-- A new count that the posture run has reached, and one that it has not (R58). -/
theorem witness_TuningRequest_runs :
    ((6 : Nat) ≤ 6 ∧ ({ docked with pe := foldedAsleep.pe } : State).pe.posture.run = 5 ∧
      ({ docked with pe := foldedAsleep.pe } : State).pe.posture.state = .locked) ∧
    Ready .setTuning { docked with pe := foldedAsleep.pe } := by unfold Ready; decide

theorem witness_StepKeepsPostureLaws :
    forcingHolds docked ∧ docked.held = none ∧ tuningInRange docked.settings.tuning ∧ lawRuns docked :=
  ⟨by unfold forcingHolds; decide, rfl, by unfold tuningInRange; decide, by unfold lawRuns lockOk; decide⟩

/-- The docked part with its stream pausing. -/
def pausing : State := { docked with bm := { docked.bm with stream := .pausing, quiesce := some 50 } }

theorem witness_BaseLinkRecords :
    (docked.held = none ∧ BmState.hasBase docked.bm.state = true ∧ docked.bm.stream = .running ∧
      docked.sfe.late = false) ∧
    ({ docked with sfe := { docked.sfe with late := true } } : State).sfe.late = true ∧
    ¬ (BmState.hasBase start.bm.state = true ∧ start.bm.stream = .running) ∧
    (BmState.hasBase pausing.bm.state = true ∧ pausing.bm.stream = .pausing ∧ pausing.bm.quiesce = some 50) := by decide

/-- A base settles. -/
def settling : State := { start with bm := { Bm.reset with bpres := .asserted, state := .settling, settle := some 100 } }

theorem witness_BasePresence :
    (start.held = none ∧ Level.asserted ≠ start.bm.bpres ∧ start.bm.state = .absent) ∧
    (settling.held = none ∧ Level.released ≠ settling.bm.bpres ∧ settling.bm.state = .settling ∧
      settling.bm.settle = some 100 ∧ 120 ≤ settling.rba.capacity) ∧
    ({ settling with rba := { Rba.reset with capacity := 75 } } : State).rba.capacity < 120 ∧
    (Level.released ≠ docked.bm.bpres ∧ docked.bm.state ≠ .absent ∧ docked.bm.state ≠ .settling) := by decide

/-- QUERY_2 is out. -/
def askedAgain : State := { identifying with bm := { identifying.bm with phase := some .query2 } }

/-- The base's power is being cycled. -/
def cycling : State :=
  { identifying with
    bm := { identifying.bm with phase := some .cycling, queryOut := false, query := none, cycling := some 550 } }

theorem witness_IdentificationTimers :
    (identifying.held = none ∧ identifying.bm.state = .identifying ∧ identifying.bm.query = some 500 ∧
      identifying.bm.phase = some .query1 ∧ identifying.bm.cycling = none) ∧
    (askedAgain.held = none ∧ askedAgain.bm.state = .identifying ∧ askedAgain.bm.query = some 500 ∧
      askedAgain.bm.phase = some .query2) ∧
    (cycling.bm.state = .identifying ∧ cycling.bm.cycling = some 550 ∧ cycling.bm.query = none) := by decide

/-- The part that identifies a base, with a table, a policy and a capacity. -/
def identifyingWith (table : List BaseEntry) (policy : BasePolicy) (capacity : Nat) : State :=
  { identifying with
    settings := { defaultSettings with table := table, basePolicy := policy }
    rba := { identifying.rba with capacity := capacity } }

theorem witness_IdentTaken :
    (∀ s ∈ [identifyingWith [⟨0xB2, 0x22, 0⟩] .accept 600, identifyingWith [] .refuse 600, identifyingWith [] .accept 75],
      s.held = none ∧ s.bm.state = .identifying ∧ s.bm.queryOut = true) ∧
    (min 255 200 ≤ (identifyingWith [⟨0xB2, 0x22, 0⟩] .accept 600).rba.capacity ∧
      ((identifyingWith [⟨0xB2, 0x22, 0⟩] .accept 600).settings.table.find? fun e => e.serial == 0xB2#48) =
        some ⟨0xB2, 0x22, 0⟩) ∧
    (((identifyingWith [⟨0xB2, 0x22, 0⟩] .accept 600).settings.table.find? fun e => e.serial == 0xC4#48) = none ∧
      (identifyingWith [⟨0xB2, 0x22, 0⟩] .accept 600).settings.basePolicy = .accept) ∧
    (((identifyingWith [] .refuse 600).settings.table.find? fun e => e.serial == 0xC4#48) = none ∧
      (identifyingWith [] .refuse 600).settings.basePolicy = .refuse) ∧
    (identifyingWith [] .accept 75).rba.capacity < min 90 200 ∧
    (docked.held = none ∧ ¬ (docked.bm.state = .identifying ∧ docked.bm.queryOut = true)) := by decide

theorem witness_BaseGoneByState :
    (∀ s ∈ [settling, identifying, refusedBase, docked, asked, opening, closing],
      (going s).held = none ∧ (going s).bm.loss = some 20 ∧ (going s).bm.bpres = .released) ∧
    ((going settling).bm.state = .settling ∧ (going identifying).bm.state = .identifying ∧
      (going refusedBase).bm.state = .refused ∧ (going asked).bm.state = .detachAsked ∧
      (going opening).bm.state = .releasing ∧ (going closing).bm.state = .closing) ∧
    ((going docked).bm.state = .attached ∧ (going docked).pe.situation = .none ∧
      (going docked).sfe.lid.level = .released) ∧
    ({ going docked with bm := { (going docked).bm with bpres := .asserted } } : State).bm.loss = some 20 := by decide

theorem witness_TableRequests :
    ([1, 2, 3, 4, 5, 6] : List Byte).length = 6 ∧ ([0, 4] : List Byte).length = 2 ∧
    (Ready .forgetBase docked ∧ (docked.settings.table.find? fun e => e.serial == u48 [0xA1, 0, 0, 0, 0, 0] 0) =
        some ⟨0xA1, 0x21, 24⟩ ∧ docked.bm.active = some (u48 [0xA1, 0, 0, 0, 0, 0] 0) ∧
      (docked.settings.table.find? fun e => e.serial == u48 [0xB2, 0, 0, 0, 0, 0] 0) = some ⟨0xB2, 0x22, 0⟩ ∧
      (docked.settings.table.find? fun e => e.serial == u48 [0xD5, 0, 0, 0, 0, 0] 0) = none) ∧
    (Ready .setBaseOffset docked ∧ 1 < (2 : Byte).toNat ∧ docked.bm.active = some 0xA1) ∧
    (docked.settings.table[1]? = some ⟨0xB2, 0x22, 0⟩ ∧ ∀ x ∈ docked.settings.table.take 1, x.serial ≠ 0xB2#48) ∧
    (Ready .setBaseOffset start ∧ start.bm.active = none) := by unfold Ready; decide

theorem witness_CalibrateAndAccept :
    (Ready .calibrateHinge docked ∧ docked.bm.state = .attached ∧ docked.pe.posture.state = .locked ∧
      docked.pe.fresh = true ∧ docked.pe.thetaCurrent = true ∧
      (docked.bm.active.bind fun a => docked.settings.table.find? fun e => e.serial == a) = some ⟨0xA1, 0x21, 24⟩) ∧
    (Ready .calibrateHinge start ∧ start.bm.state ≠ .attached) ∧
    (Ready .acceptBase refusedBase ∧ refusedBase.bm.state = .refused ∧
      refusedBase.bm.identity = some ⟨0xB3, 0x21, 90, 1⟩ ∧ min 90 200 ≤ refusedBase.rba.capacity) ∧
    (Ready .acceptBase start ∧ start.bm.state ≠ .refused) := by unfold Ready; decide

theorem witness_BasePolicyRequest : Ready .setBasePolicy docked ∧ Ready .restoreDefaults docked := by unfold Ready; decide

theorem witness_StepKeepsTableLaw :
    lawTable docked ∧ ∀ e ∈ docked.settings.table, -720 ≤ e.offset ∧ e.offset ≤ 720 := by unfold lawTable; decide

theorem witness_DetachButtonIsDebounced :
    (start.held = none ∧ Level.asserted ≠ start.det.dbtn ∧ start.det.debounce = .steady ∧ start.det.hold = none ∧
      start.det.blink = none) ∧
    (Level.released ≠ Level.asserted ∧
      ({ Det.reset with dbtn := .asserted, debounce := .changing, hold := some 50 } : Det).debounce = .changing) ∧
    ({ Det.reset with debounce := .changing, hold := some 50 } : Det).dbtn = .released ∧
    ({ Det.reset with blink := some 2000 } : Det).blink = some 2000 := by decide

/-- The part with the button held for 50 ms. -/
def pressed (s : State) : State := { s with det := { s.det with dbtn := .asserted, debounce := .changing, hold := some 50 } }

theorem witness_PressByState :
    (∀ s ∈ [start, docked, asked, opening], (pressed s).held = none ∧ (pressed s).det.hold = some 50 ∧
      (pressed s).det.dbtn = .asserted) ∧
    (¬ (start.bm.state = .attached ∨ start.bm.state = .detachAsked ∨ start.bm.state = .releasing)) ∧
    (docked.bm.state = .attached ∧
      ¬ (docked.sfe.lid.level = .asserted ∨ bitHas docked.cm.latched Cond.latchStuck.idx = true) ∧
      ¬ (docked.spu.host = .running ∧ bitHas docked.lc.grant EventClass.detach.idx = true) ∧
      docked.settings.detach.standing = .allow ∧ docked.spu.state ≠ .asleep) ∧
    ((sendingAll docked).spu.host = .running ∧ bitHas (sendingAll docked).lc.grant EventClass.detach.idx = true) ∧
    (asked.bm.state = .detachAsked ∧ asked.det.unpowered = false) ∧
    (opening.bm.state = .releasing ∧ opening.det.energised = true) := by decide

/-- The latch waits for its grant. -/
def waitingGrant : State :=
  { opening with
    det := { openingDet with deadline := .grantWait, energised := false, lsol := false, timer := some 1000 }
    rba := { opening.rba with capacity := 150, grants := { base := 150, latch := 0, pen := 0 } } }

/-- The docked part in ASLEEP, whose button may wake it. -/
def dockedAsleep : State :=
  { docked with
    settings := { docked.settings with wake := { defaultWake with detachButton := ⟨.enabled, allPostures⟩ } }
    spu := { docked.spu with host := .suspended, state := .asleep, mode := .watch } }

/-- A detach attempt over a base that has lost its supply. -/
def unpowering (s : State) : State := { s with det := { s.det with unpowered := true } }

theorem witness_PressByState_others :
    (∀ s ∈ [dockedAsleep, unpowering asked, unpowering opening], (pressed s).held = none ∧ (pressed s).det.hold = some 50) ∧
    (dockedAsleep.bm.state = .attached ∧ dockedAsleep.spu.state = .asleep ∧ dockedAsleep.spu.host ≠ .running ∧
      dockedAsleep.settings.detach.standing = .allow ∧ dockedAsleep.sfe.lid.level = .released ∧
      dockedAsleep.settings.wake.detachButton.enable = .enabled ∧
      bitHas dockedAsleep.settings.wake.detachButton.mask dockedAsleep.spu.view.posture.code = true ∧
      (after .buttonHoldExpiry (pressed dockedAsleep)).spu.causes = bitAdd 0 WakeCause.detachButton.idx ∧
      (after .buttonHoldExpiry (pressed dockedAsleep)).bm.state = .releasing) ∧
    ((unpowering asked).bm.state = .detachAsked ∧ (unpowering asked).det.unpowered = true) ∧
    ((unpowering waitingGrant).bm.state = .releasing ∧ (unpowering waitingGrant).det.energised = false ∧
      (unpowering opening).det.energised = true ∧ (unpowering opening).det.lsw = .shut) := by decide

/-- Consent has been asked for, and the host takes DETACH events. -/
def askedHost : State := { asked with lc := { Lc.reset with grant := 0xFF } }

theorem witness_ConsentCommands :
    (Ready .detachConsent start ∧ ¬ bitHas start.lc.grant EventClass.detach.idx = true) ∧
    (Ready .detachConsent askedHost ∧ bitHas askedHost.lc.grant EventClass.detach.idx = true ∧
      1 < (2 : Byte).toNat ∧ (1 : Byte).toNat ≤ 1 ∧ askedHost.bm.state = .detachAsked ∧ askedHost.det.unpowered = false) ∧
    (Ready .requestDetach docked ∧ docked.bm.state = .attached ∧
      ¬ (docked.sfe.lid.level = .asserted ∨ bitHas docked.cm.latched Cond.latchStuck.idx = true)) ∧
    (Ready .requestDetach start ∧ start.bm.state ≠ .attached ∧ start.bm.state ≠ .detachAsked ∧
      start.det.deadline ≠ .consent) ∧
    (asked.held = none ∧ asked.det.timer = some 2000 ∧ asked.det.deadline = .consent ∧
      asked.settings.detach.timeoutAction = .deny) := by unfold Ready; decide

/-- The latch is being closed over a base that has lost its supply. -/
def unpowered : State := { closing with det := { closing.det with unpowered := true } }

theorem witness_LatchCommands :
    (opening.held = none ∧ opening.det.timer = some 150 ∧ opening.bm.state = .releasing ∧
      opening.det.deadline = .openCheck ∧ opening.det.unpowered = false) ∧
    (window.held = none ∧ window.det.timer = some 3000 ∧ window.bm.state = .releasing ∧ window.det.deadline = .window) ∧
    (closing.held = none ∧ closing.det.timer = some 150 ∧ closing.bm.state = .closing ∧
      closing.det.deadline = .closeCheck ∧ closing.det.unpowered = false ∧ closing.det.closing = some .timedOut) ∧
    (waitingGrant.held = none ∧ waitingGrant.det.timer = some 1000 ∧ waitingGrant.bm.state = .releasing ∧
      waitingGrant.det.deadline = .grantWait ∧ waitingGrant.det.unpowered = false) ∧
    (unpowered.held = none ∧ unpowered.det.timer = some 150 ∧ unpowered.bm.state = .closing ∧
      unpowered.det.deadline = .closeCheck ∧ ¬ unpowered.det.unpowered = false) ∧
    (docked.bm.state ≠ .releasing ∧ docked.bm.state ≠ .closing ∧ docked.det.timer = none ∧
      (unpowering opening).det.timer = some 150 ∧ (unpowering waitingGrant).det.timer = some 1000) := by decide

theorem witness_DetachPolicyRequest :
    Ready .setDetachPolicy docked ∧ (1 : Byte).toNat ≤ 1 ∧ 1 < (2 : Byte).toNat ∧ Ready .restoreDefaults docked := by
  unfold Ready; decide

theorem witness_StepKeepsLatchLaw : latchHolds opening := by unfold latchHolds; decide

/-- A scan that confirms LOW. -/
def lowComing : State := { start with sm := { Sm.reset with supplyCandidate := some .low } }

theorem witness_ScanCommands :
    (start.held = none ∧ start.sm.period = some 100 ∧ start.sm.scanning = true ∧ bandOf start.sm.supply 3700 = .normal ∧
      heatOf start.sm.thermal 20 = .cool ∧ start.pdc.state ≠ .topoff) ∧
    (lowComing.held = none ∧ lowComing.sm.scanning = true ∧
      lowComing.sm.supplyCandidate = some (bandOf lowComing.sm.supply 3499)) ∧
    (bandOf .normal 3500 = .normal ∧ bandOf .normal 3299 = .critical ∧ heatOf .cool 60 = .warm ∧ heatOf .warm 55 = .warm) ∧
    ({ Sm.reset with scanning := false } : Sm).scanning = false := by decide

/-- A scan that confirms WARM in CRITICAL, over one consumer's claim. -/
def warmComing (s : State) : State :=
  { s with sm := { Sm.reset with supply := .critical, thermalCandidate := some .warm } }

/-- The notices of R115 at 75 mA: a pen's claim on 100 mA gets 75, one on 200 mA against a minimum of 100 gets none, a BASE
claim of 120 mA falls short, and the latch is lost. -/
theorem witness_ScanCommands_notices :
    (∀ s ∈ [identifying, docked, opening, waitingGrant],
      s.rba.grants = grantTable s.rba.capacity s.rba.base s.rba.latch s.rba.pen) ∧
    (∀ s ∈ [penTopoff, identifying, docked, opening], (warmComing s).held = none ∧ (warmComing s).sm.scanning = true ∧
      (warmComing s).sm.thermalCandidate = some (heatOf (warmComing s).sm.thermal 60)) ∧
    ((grantTable 75 none none (some ⟨100, 40⟩)).pen = 75 ∧ (grantTable 75 none none (some ⟨200, 100⟩)).pen = 0 ∧
      (grantTable 75 none none (some ⟨200, 100⟩)).base = 0 ∧ penCharging.pdc.grant = penCharging.rba.grants.pen) ∧
    (identifying.rba.base = some ⟨120, 120⟩ ∧ (grantTable 75 identifying.rba.base none none).base ≠ 120 ∧
      identifying.bm.state = .identifying ∧ docked.bm.state = .attached ∧
      (grantTable 75 docked.rba.base none none).base ≠ docked.rba.grants.base) ∧
    (opening.bm.state = .releasing ∧ opening.rba.latch.isSome = true ∧ opening.det.lsol = true ∧
      (grantTable 75 opening.rba.base opening.rba.latch none).latch = 0 ∧ opening.rba.grants.latch = 250) ∧
    (waitingGrant.det.deadline = .grantWait ∧
      (grantTable 600 waitingGrant.rba.base waitingGrant.rba.latch none).latch = 250 ∧
      waitingGrant.rba.grants.latch = 0) := by decide

theorem witness_GrantsFollowTheRail :
    opening.rba.grants = grantTable opening.rba.capacity opening.rba.base opening.rba.latch opening.rba.pen ∧
    opening.rba.capacity = capacityOf opening.sm.supply opening.sm.thermal := by decide

/-- A pen settles. -/
def penSettling : State := { start with pdc := { Pdc.reset with state := .settling, pdet := .asserted, settle := some 200 } }

theorem witness_PenPresence :
    (start.held = none ∧ Level.asserted ≠ start.pdc.pdet ∧ start.pdc.state = .empty ∧ start.pdc.removal = none) ∧
    (penSettling.held = none ∧ Level.released ≠ penSettling.pdc.pdet ∧ penSettling.pdc.state = .settling ∧
      penSettling.pdc.settle = some 200) ∧
    (Level.released ≠ penCharging.pdc.pdet ∧ penCharging.pdc.state ≠ .empty ∧ penCharging.pdc.state ≠ .settling) ∧
    ({ penCharging.pdc with pdet := .released, removal := some 50 } : Pdc).removal = some 50 := by decide

/-- A polled pen in a state, with its reasons. -/
def penPolled (st : PdcState) (reasons : BitVec 3) (cycle : Bool) : State :=
  { penCharging with
    pdc := { penCharging.pdc with
      state := st, reasons := reasons, cycleOpen := cycle, grant := 0, setpoint := 0, remembered := none }
    rba := Rba.reset }

theorem witness_PenPolls :
    (penIn.held = none ∧ penIn.pdc.outstanding = true ∧ penIn.pdc.response = some 50 ∧ penIn.pdc.misses < 2 ∧
      penIn.pdc.state = .identifying ∧ penIn.pdc.poll = none ∧ penIn.pdc.reasons = 0 ∧ penIn.pdc.cycleOpen = false ∧
      (pen 3800 40).cellFault = false ∧ (pen 3800 40).charge < penIn.settings.pen.recharge ∧
      penIn.settings.pen.recharge ≤ (pen 4200 95).charge) ∧
    (penCharging.pdc.state = .charge ∧ penCharging.pdc.outstanding = true ∧ penCharging.pdc.reasons = 0 ∧
      penCharging.pdc.last = some (pen 3800 40) ∧ (pen 3800 40).serial = (pen 4200 60).serial ∧ 4150 ≤ (pen 4200 60).cell) ∧
    (penPrecharging.pdc.state = .precharge ∧ penPrecharging.pdc.outstanding = true ∧ penPrecharging.pdc.reasons = 0 ∧
      3000 ≤ (pen 3000 20).cell ∧ (pen 4149 20).cell < 4150 ∧ (pen 2999 20).cell < 3000) ∧
    (∀ st ∈ [PdcState.suspended, .full, .waitGrant, .identifying], (penPolled st 0 true).held = none ∧
      (penPolled st 0 true).pdc.state = st ∧ (penPolled st 0 true).pdc.outstanding = true) ∧
    (∀ temp ∈ [(0 : Int), 2, 43, 45], ¬ (temp < 0 ∨ 45 < temp) ∧ ¬ (3 ≤ temp ∧ temp ≤ 42)) ∧
    ((penPolled .suspended 0b001 true).pdc.reasons ≠ 0 ∧
      bitDrop (penPolled .suspended (bitAdd 0 SuspendReason.temp.idx) true).pdc.reasons SuspendReason.temp.idx = 0 ∧
      bitAdd (0 : BitVec 3) SuspendReason.temp.idx ≠ 0) ∧
    2 ≤ ({ penIn.pdc with misses := 2 } : Pdc).misses := by decide

theorem witness_AnotherPenStartsAfresh :
    penCharging.held = none ∧ penCharging.pdc.outstanding = true ∧ penCharging.pdc.last = some (pen 3800 40) ∧
    penCharging.pdc.state ≠ .identifying ∧ (pen 3800 40).serial ≠ ({ pen 3800 40 with serial := 8 } : PenStatus).serial ∧
    (pen 3800 40).cell ≤ 4500 ∧ 3 ≤ (pen 3800 40).temp ∧ (pen 3800 40).temp ≤ 42 ∧
    (pen 3800 40).charge < penCharging.settings.pen.recharge ∧ penCharging.settings.pen.recharge ≤ 100 ∧
    (pen 3800 40).cellFault = false ∧ bitDrop penCharging.pdc.reasons SuspendReason.temp.idx = 0 := by decide

theorem witness_PenTimersAndSettings :
    ([200, 90, 15, 180, 0] : List Byte).length = 5 ∧
    (penPrecharging.held = none ∧ penPrecharging.pdc.cycleOpen = true ∧ penPrecharging.pdc.state = .precharge) ∧
    (penCharging.held = none ∧ penCharging.pdc.cycleOpen = true ∧ penCharging.pdc.state = .charge ∧
      penCharging.pdc.reasons = 0 ∧ penCharging.settings.pen.maxCurrent = 200) ∧
    (start.held = none ∧ start.pdc.cycleOpen = false) ∧
    (penTopoff.held = none ∧ penTopoff.sm.scanning = true ∧ penTopoff.pdc.state = .topoff ∧ penTopoff.pdc.grant = 100 ∧
      bandOf penTopoff.sm.supply (min 5000 3700) = penTopoff.sm.supply ∧
      heatOf penTopoff.sm.thermal (max (-40) (min 125 20)) = penTopoff.sm.thermal ∧ penTopoff.pdc.runStart = some 1000 ∧
      1000 + 3000 ≤ penTopoff.now ∧ min 300 14 < penTopoff.settings.pen.termination ∧
      ¬ min 300 15 < penTopoff.settings.pen.termination) ∧
    (({ penTopoff with now := 3999 } : State).now < 1000 + 3000 ∧ ({ penTopoff.pdc with runStart := none } : Pdc).runStart = none) ∧
    (Ready .setPenCharging penCharging ∧ (1 : Byte).toNat ≤ 1 ∧ 1 < (2 : Byte).toNat) ∧
    (Ready .setPenCharging (penPolled .suspended (bitAdd 0 SuspendReason.host.idx) true) ∧
      (penPolled .suspended (bitAdd 0 SuspendReason.host.idx) true).pdc.last = some (pen 3800 40)) ∧
    Ready .setPenCharging (penPolled .waitGrant 0 true) := by unfold Ready; decide

theorem witness_StepKeepsPenLaws : penHolds penCharging := by unfold penHolds lawChargeTime; decide

theorem witness_HostStateMovesSpu :
    (Ready .hostState waking ∧ hostViewOf (0 : Byte).toNat = some .running ∧ waking.spu.state = .waking ∧
      waking.spu.mode = .active ∧ waking.spu.view = viewOf waking.pe ∧
      ∀ tr ∈ [Trigger.lid, .faceDown, .supply], (triggerRec tr waking.spu).holds = triggerHolds tr waking) ∧
    (3 < (4 : Byte).toNat ∧ hostViewOf (3 : Byte).toNat = some .off) ∧
    (Ready .hostState (hostIs .running .advised) ∧ (hostIs .running .advised).spu.state = .advised) ∧
    (Ready .hostState (hostIs .suspending .suspending) ∧ hostViewOf (2 : Byte).toNat = some .suspended ∧
      ({ (hostIs .suspending .suspending).spu with pending := 1 } : Spu).pending ≠ 0) ∧
    (hostTable .running { (hostIs .suspended .asleep).spu with lid := ⟨true, none, true⟩ } = .advised ∧
      bitHas (sendingAll start).lc.grant EventClass.sleep.idx = true) := by unfold Ready; decide

/-- OFF takes the part mode from ACTIVE to HALT, and RUNNING takes it back. -/
theorem witness_HostStateMovesSpu_mode :
    (Ready .hostState docked ∧ (after (.hostState 1 [3]) docked).spu.mode = .halt ∧ docked.spu.mode = .active) ∧
    (Ready .hostState { docked with spu := { docked.spu with host := .off, state := .off, mode := .halt } } ∧
      (after (.hostState 1 [0]) { docked with spu := { docked.spu with host := .off, state := .off, mode := .halt } }).spu.mode =
        .active) := by unfold Ready; decide

/-- The LID trigger's time runs. -/
def lidRipens (v : HostView) (st : SpuState) : State :=
  { hostIs v st with spu := { (hostIs v st).spu with lid := ⟨true, some 500, false⟩ } }

/-- The lid-confirm timer runs in ASLEEP. -/
def lidConfirms : State :=
  { hostIs .suspended .asleep with spu := { (hostIs .suspended .asleep).spu with lidConfirm := some 300 } }

theorem witness_SleepTimers :
    ((lidRipens .running .awake).held = none ∧ (triggerRec .lid (lidRipens .running .awake).spu).timer = some 500 ∧
      (lidRipens .running .awake).spu.state = .awake) ∧
    (triggerRec .lid (lidRipens .suspended .asleep).spu).timer = some 500 ∧
    (triggerRec .faceDown start.spu).timer = none ∧
    (lidConfirms.held = none ∧ lidConfirms.spu.lidConfirm = some 300 ∧
      lidConfirms.settings.wake.lidOpened.enable = .enabled ∧
      bitHas lidConfirms.settings.wake.lidOpened.mask lidConfirms.spu.view.posture.code = true) ∧
    (waking.spu.state = .waking ∧ waking.spu.wake = some 2000 ∧ waking.spu.attempt < waking.spu.limit.getD 0) ∧
    (({ waking.spu with attempt := 3 } : Spu).limit.getD 0 ≤ 3) ∧
    ({ waking.spu with wake := none, gap := some 100 } : Spu).gap = some 100 := by decide

theorem witness_SleepSettings :
    ([0, 1, 0, 244, 1, 136, 19, 44, 1, 208, 7, 3, 1] : List Byte).length = 13 ∧
    ([0, 127, 0, 1, 1, 0, 0, 5, 1, 6, 1, 7] : List Byte).length = 12 ∧
    (Ready .setSleepPolicy docked ∧ Ready .setWakeCauses docked) ∧
    (∀ k ∈ List.range 6, u8 [0, 127, 0, 1, 1, 0, 0, 5, 1, 6, 1, 7] (2 * k) ≤ 1 ∧
      u8 [0, 127, 0, 1, 1, 0, 0, 5, 1, 6, 1, 7] (2 * k + 1) < 128) ∧
    ¬ u8 [2] 0 ≤ 1 := by unfold Ready; decide

/-- The docked part in ASLEEP and HALT, its LID and SUPPLY triggers disabled. -/
def noTriggers : State :=
  { docked with
    settings := { docked.settings with sleep := { docked.settings.sleep with lid := .disabled, supply := .disabled } }
    spu :=
      { docked.spu with
        host := .suspended, state := .asleep, mode := .halt
        view := { docked.spu.view with posture := .closed } } }

/-- LID and SUPPLY enabled by a policy with a lid grace of 500 ms, and a wake cause that takes HALT to WATCH. -/
theorem witness_SleepSettings_moves :
    (Ready .setSleepPolicy noTriggers ∧ triggerEnable .lid noTriggers.settings.sleep = .disabled ∧
      condition defaultSettings.sleep noTriggers.spu.view .critical .lid = true ∧
      condition defaultSettings.sleep noTriggers.spu.view .critical .supply = true ∧
      noTriggers.spu.lid.holds = false) ∧
    (Ready .setWakeCauses noTriggers ∧
      (after (.setWakeCauses 1 [0, 127, 0, 1, 1, 0, 0, 5, 1, 6, 0, 7]) noTriggers).spu.mode ≠ noTriggers.spu.mode) := by
  unfold Ready; decide

theorem witness_StepKeepsSleepLaws :
    wakeHolds waking ∧ ({ waking with spu := { waking.spu with mode := .active } } : State).spu.mode = modeOf waking := by
  unfold wakeHolds lawWake; decide

theorem witness_ClearConditionsAndUptime :
    Ready .clearConditions faulted ∧ (255 : Byte).toNat + 256 * (63 : Byte).toNat < 16384 ∧ (1 : Byte).toNat ≤ 1 ∧
    16384 ≤ (0 : Byte).toNat + 256 * (64 : Byte).toNat ∧ 1 < (2 : Byte).toNat ∧ start.held = none := by
  unfold Ready; decide

/-- A condition has been recorded and a commit is being written. -/
def storing : State :=
  { start with
    cm := { Cm.reset with
      latched := 1, live := 1, next := 1
      ring :=
        [{ seq := 0, cond := .dsensFault, detail := 1, uptime := 0, host := .running, posture := .detached, earlier := false }] }
    ss := { start.ss with
      state := .writing, attempt := some 1, snapshot := some defaultSettings
      image := markInvalid start.ss.image } }

theorem witness_StepKeepsConditionAndStoreLaws : conditionsHold storing ∧ storeHolds storing := by
  constructor
  · refine ⟨by unfold lawLatched; decide, ?_, by decide, by decide⟩
    intro c hc
    cases c <;> first | rfl | (exact absurd hc (by decide))
  · unfold storeHolds
    refine ⟨by decide, by decide, fun _ => ?_⟩
    simp [storing, checksumOk, markInvalid]

theorem witness_SaveAndRestore :
    (Ready .saveSettings docked ∧ docked.ss.state = .idle) ∧
    (Ready .saveSettings storing ∧ storing.ss.state ≠ .idle) ∧ Ready .restoreDefaults docked := by unfold Ready; decide

/-- A written image is compared, in an attempt. -/
def verifying (image : Image) (n : Nat) : State :=
  { storing with ss := { storing.ss with state := .verifying, attempt := some n, image := image } }

theorem witness_CommitOperations :
    (storing.held = none ∧ storing.ss.snapshot = some defaultSettings ∧ storing.ss.attempt = some 1 ∧
      storing.ss.state = .writing) ∧
    (∀ n ∈ [1, 2], (verifying (imageOf defaultSettings) n).held = none ∧
      (verifying (imageOf defaultSettings) n).ss.snapshot = some defaultSettings ∧
      (verifying (imageOf defaultSettings) n).ss.attempt = some n ∧
      (verifying (imageOf defaultSettings) n).ss.state = .verifying) ∧
    (verifying (imageOf defaultSettings) 1).ss.image = imageOf defaultSettings ∧
    ¬ (verifying ⟨rawSettings defaultSettings, 0⟩ 2).ss.image = imageOf defaultSettings := by decide

theorem witness_Resets :
    (docked.nrst = .released ∧ docked.held = none) ∧
    (∀ k ∈ [ResetKind.pin, .powerOn, .brownout],
      ({ docked with nrst := .asserted, held := some k } : State).nrst = .asserted ∧
      ({ docked with nrst := .asserted, held := some k } : State).held = some k) ∧
    (softHeld.nrst = .released ∧ softHeld.held = some .soft) ∧
    (resetReplied.held = none ∧
      resetReplied.lc.tx = some (.reply .resetPart 1 { result := .ok, content := .none })) ∧
    (checksumOk storing.ss.image = false ∧ storing.nrst = .released) ∧
    (checksumOk start.ss.image = true ∧ readSettings start.ss.image.content = some defaultSettings) := by
  refine ⟨by decide, by decide, by decide, by decide, ⟨?_, by decide⟩, by decide, by decide⟩
  simp [storing, checksumOk, markInvalid]

end Sys2Proof.Tests
end

/-!
The angle arithmetic of R22 to R29.

ANG is a base angle in 0..1440 that the signs place in a quadrant. The neighbouring quadrants agree on the half axis they
share, because the base is 0 on the reference axis and 1440 on the second one. So each quadrant's formula holds on its
closed quadrant (`ang_firstQuadrant` to `ang_fourthQuadrant`), and every reflection is a comparison of two of them.
-/
namespace Sys2Proof.Machine

/-! ### The ratio, the estimate and the base -/

theorem angRatio_le (a b : Nat) : angRatio a b ≤ 4096 :=
  Nat.div_le_of_le_mul (Nat.mul_le_mul_right 4096 min_le_max)

theorem angRatio_comm (a b : Nat) : angRatio a b = angRatio b a := by
  simp only [angRatio, min_comm, max_comm]

theorem angRatio_of_le {a b : Nat} (h : b ≤ a) : angRatio a b = b * 4096 / a := by
  simp only [angRatio, min_eq_right h, max_eq_left h]

@[simp] theorem angEstimate_zero : angEstimate 0 = 0 := rfl

@[simp] theorem angEstimate_full : angEstimate 4096 = 720 := rfl

/-- With t = 4096 − u the product of R23 is 720 · 2²⁴ less u · (470 · 4096 + 250 · u), so it is largest at t = 4096. -/
theorem angEstimate_le {t : Nat} (ht : t ≤ 4096) : angEstimate t ≤ 720 := by
  obtain ⟨u, hu⟩ := Nat.exists_eq_add_of_le ht
  have hsub : 4096 - t = u := by omega
  have hprod : t * (2949120 + 250 * u) ≤ 720 * 16777216 := by nlinarith only [hu]
  rw [angEstimate, hsub]
  omega

theorem angBase_of_le {a b : Nat} (h : b ≤ a) : angBase a b = angEstimate (angRatio a b) := if_pos h

theorem angBase_of_lt {a b : Nat} (h : a < b) : angBase a b = 1440 - angEstimate (angRatio a b) := if_neg (by omega)

theorem angBase_le (a b : Nat) : angBase a b ≤ 1440 := by
  have he := angEstimate_le (angRatio_le a b)
  rcases le_or_gt b a with h | h
  · rw [angBase_of_le h]; omega
  · rw [angBase_of_lt h]; omega

@[simp] theorem angBase_zero_right (a : Nat) : angBase a 0 = 0 := by
  simp [angBase, angRatio]

theorem angBase_zero_left {b : Nat} (hb : 0 < b) : angBase 0 b = 1440 := by
  simp [angBase_of_lt hb, angRatio]

theorem angBase_self {a : Nat} (ha : 0 < a) : angBase a a = 720 := by
  rw [angBase_of_le le_rfl, angRatio_of_le le_rfl, Nat.mul_div_cancel_left 4096 ha, angEstimate_full]

theorem angBase_add_swap {a b : Nat} (ha : 0 < a) : angBase a b + angBase b a = 1440 := by
  have he := angEstimate_le (angRatio_le a b)
  rcases lt_trichotomy a b with h | rfl | h
  · rw [angBase_of_lt h, angBase_of_le h.le, angRatio_comm b a]; omega
  · rw [angBase_self ha]
  · rw [angBase_of_le h.le, angBase_of_lt h, angRatio_comm b a]; omega

/-! ### The four closed quadrants -/

theorem ang_firstQuadrant {p q : Int} (hp : 0 ≤ p) (hq : 0 ≤ q) : ang p q = angBase p.natAbs q.natAbs := by
  rw [ang, if_pos hp, if_pos hq]

theorem ang_secondQuadrant {p q : Int} (hp : p ≤ 0) (hq : 0 ≤ q) (hne : p ≠ 0 ∨ q ≠ 0) :
    ang p q = 2880 - angBase p.natAbs q.natAbs := by
  rcases hp.lt_or_eq with hlt | rfl
  · rw [ang, if_neg (by omega), if_pos hq]
  · have hbase : angBase (0 : Int).natAbs q.natAbs = 1440 := angBase_zero_left (by omega)
    rw [ang_firstQuadrant le_rfl hq, hbase]

theorem ang_fourthQuadrant {p q : Int} (hp : 0 ≤ p) (hq : q ≤ 0) :
    ang p q = (5760 - angBase p.natAbs q.natAbs) % 5760 := by
  have hle := angBase_le p.natAbs q.natAbs
  rcases hq.lt_or_eq with hlt | rfl
  · rw [ang, if_pos hp, if_neg (by omega)]
    split <;> omega
  · rw [ang_firstQuadrant hp le_rfl, Int.natAbs_zero, angBase_zero_right]

theorem ang_thirdQuadrant {p q : Int} (hp : p ≤ 0) (hq : q ≤ 0) (hne : p ≠ 0 ∨ q ≠ 0) :
    ang p q = 2880 + angBase p.natAbs q.natAbs := by
  rcases hp.lt_or_eq with hplt | rfl
  · rcases hq.lt_or_eq with hqlt | rfl
    · rw [ang, if_neg (by omega), if_neg (by omega)]
    · rw [ang_secondQuadrant hp le_rfl hne, Int.natAbs_zero, angBase_zero_right]
  · have hbase : angBase (0 : Int).natAbs q.natAbs = 1440 := angBase_zero_left (by omega)
    rw [ang_fourthQuadrant le_rfl hq, hbase]

/-! ### ANG: its range, its first octant and its reflections -/

theorem ang_lt (p q : Int) : ang p q < 5760 := by
  have hle := angBase_le p.natAbs q.natAbs
  rcases le_or_gt 0 p with hp | hp
  · rcases le_total 0 q with hq | hq
    · rw [ang_firstQuadrant hp hq]; omega
    · rw [ang_fourthQuadrant hp hq]; omega
  · rcases le_total 0 q with hq | hq
    · rw [ang_secondQuadrant hp.le hq (.inl hp.ne)]; omega
    · rw [ang_thirdQuadrant hp.le hq (.inl hp.ne)]; omega

/-- R22 and R23 over the integers: the truncated difference 4096 − t of the model is the true one, as t is at most 4096. -/
theorem ang_firstOctant {p q : Int} (hq : 0 ≤ q) (hqp : q ≤ p) :
    (ang p q : Int) =
      (q * 4096 / p * (2949120 + 250 * (4096 - q * 4096 / p)) + 8388608) / 16777216 := by
  lift q to Nat using hq
  lift p to Nat using by omega
  have hle : q ≤ p := by omega
  have ht := angRatio_le p q
  rw [ang_firstQuadrant (by omega) (by omega), Int.natAbs_natCast, Int.natAbs_natCast, angBase_of_le hle, angEstimate]
  rw [angRatio_of_le hle] at ht ⊢
  push_cast [Nat.cast_sub ht]
  rfl

theorem ang_exact {p : Int} (hp : 0 < p) :
    ang p 0 = 0 ∧ ang 0 p = 1440 ∧ ang (-p) 0 = 2880 ∧ ang 0 (-p) = 4320 ∧
    ang p p = 720 ∧ ang (-p) p = 2160 ∧ ang (-p) (-p) = 3600 ∧ ang p (-p) = 5040 := by
  have hneg : -p ≤ 0 := by omega
  have hne : -p ≠ 0 := by omega
  have hpos : 0 < p.natAbs := by omega
  refine ⟨?_, ?_, ?_, ?_, ?_, ?_, ?_, ?_⟩
  · simp [ang_firstQuadrant hp.le le_rfl]
  · simp [ang_firstQuadrant le_rfl hp.le, angBase_zero_left hpos]
  · simp [ang_secondQuadrant hneg le_rfl (.inl hne)]
  · simp [ang_fourthQuadrant le_rfl hneg, angBase_zero_left hpos]
  · simp [ang_firstQuadrant hp.le hp.le, angBase_self hpos]
  · simp [ang_secondQuadrant hneg hp.le (.inl hne), angBase_self hpos]
  · simp [ang_thirdQuadrant hneg hneg (.inl hne), angBase_self hpos]
  · simp [ang_fourthQuadrant hp.le hneg, angBase_self hpos]

theorem ang_add_swap {p q : Int} (hp : 0 < p) (hq : 0 < q) : ang p q + ang q p = 1440 := by
  rw [ang_firstQuadrant hp.le hq.le, ang_firstQuadrant hq.le hp.le]
  exact angBase_add_swap (by omega)

theorem ang_neg_right (p q : Int) : ang p (-q) = (5760 - ang p q) % 5760 := by
  have hle := angBase_le p.natAbs q.natAbs
  rcases le_or_gt 0 p with hp | hp
  · rcases le_total 0 q with hq | hq
    · rw [ang_firstQuadrant hp hq, ang_fourthQuadrant hp (by omega), Int.natAbs_neg]
    · rw [ang_fourthQuadrant hp hq, ang_firstQuadrant hp (by omega), Int.natAbs_neg]; omega
  · rcases le_total 0 q with hq | hq
    · rw [ang_secondQuadrant hp.le hq (.inl hp.ne), ang_thirdQuadrant hp.le (by omega) (.inl hp.ne), Int.natAbs_neg]
      omega
    · rw [ang_thirdQuadrant hp.le hq (.inl hp.ne), ang_secondQuadrant hp.le (by omega) (.inl hp.ne), Int.natAbs_neg]
      omega

/-- The negation of both components is a half turn: opposite closed quadrants have the same base. -/
theorem ang_neg_both {p q : Int} (hne : p ≠ 0 ∨ q ≠ 0) : ang (-p) (-q) = (ang p q + 2880) % 5760 := by
  have hle := angBase_le p.natAbs q.natAbs
  have hne' : -p ≠ 0 ∨ -q ≠ 0 := by omega
  rcases le_total 0 p with hp | hp
  · rcases le_total 0 q with hq | hq
    · rw [ang_firstQuadrant hp hq, ang_thirdQuadrant (by omega) (by omega) hne', Int.natAbs_neg, Int.natAbs_neg]
      omega
    · rw [ang_fourthQuadrant hp hq, ang_secondQuadrant (by omega) (by omega) hne', Int.natAbs_neg, Int.natAbs_neg]
      omega
  · rcases le_total 0 q with hq | hq
    · rw [ang_secondQuadrant hp hq hne, ang_fourthQuadrant (by omega) (by omega), Int.natAbs_neg, Int.natAbs_neg]
      omega
    · rw [ang_thirdQuadrant hp hq hne, ang_firstQuadrant (by omega) (by omega), Int.natAbs_neg, Int.natAbs_neg]
      omega

/-! ### The hinge angle -/

theorem hingeAngle_cast (d b : Vec3) (c : Int) :
    (hingeAngle d b c : Int) = (2880 - (ang d.z d.y : Int) + (ang b.z b.y : Int) + c) % 5760 :=
  Int.toNat_of_nonneg (Int.emod_nonneg _ (by decide))

theorem hingeAngle_lt (d b : Vec3) (c : Int) : hingeAngle d b c < 5760 := by
  have hcast := hingeAngle_cast d b c
  omega

theorem hingeAngle_add_offset (d b : Vec3) (c k : Int) :
    (hingeAngle d b (c + k) : Int) = ((hingeAngle d b c : Int) + k) % 5760 := by
  rw [hingeAngle_cast, hingeAngle_cast, Int.emod_add_emod, ← add_assoc]

/-- Settles O25, from the four closed quadrants of ANG and the emod that defines the hinge angle. -/
theorem angleArithmetic : Obligations.AngleArithmetic :=
  ⟨ang_lt,
    fun _ _ hq hqp _ => ang_firstOctant hq hqp,
    fun _ => ang_exact,
    fun _ _ => ang_add_swap,
    fun _ _ => ang_neg_both,
    ang_neg_right,
    fun d b c k => ⟨hingeAngle_lt d b c, hingeAngle_cast d b c, hingeAngle_add_offset d b c k⟩⟩

end Sys2Proof.Machine

/-!
What every act of the part does to the posture machines (R35, R36, R47).

The posture laws speak of the tuning record, the two lock machines and the forcing situation. PE changes these by a few
acts only: a discontinuity, the recovery, the halt, a forcing, a sample notice, new counts, and a restart. A `LockLaw` is
a property that each of these acts keeps. `Stands L C s` says that `L` holds in `s` and, where `C` asks for it, that the
situation is the one that R35 gives. Each operation has one lemma: it keeps this (`Keeps`), or brings the situation up
to date as well (`Settles`), as every report of BM's state and every report of LIDH does.
-/
namespace Sys2Proof.Machine

open Sys2Proof.Claims

/-! ### Laws that PE's acts keep -/

/-- A property of the tuning record, the lock machines and the forcing situation that every act of PE keeps. -/
structure LockLaw where
  holds : Tuning → Pe → Prop
  /-- The law looks at the two machines and the situation alone. -/
  blind : ∀ {t p q}, q.posture = p.posture → q.orient = p.orient → q.situation = p.situation → holds t p → holds t q
  /-- A reset ends with loaded settings (R59, R194), -/
  loaded : ∀ {t}, tuningInRange t → holds t Pe.initial
  /-- or is held over the settings in force (R176). -/
  restarted : ∀ {t p}, holds t p → holds t Pe.initial
  /-- R48 -/
  broken : ∀ {t p}, holds t p → holds t p.broken
  /-- R49 -/
  recovered : ∀ {t p}, holds t p → holds t p.recovered
  /-- R49 -/
  halted : ∀ {t p}, holds t p → holds t p.halted
  /-- R36 -/
  forced : ∀ {t p} new, holds t p → holds t (p.force new)
  /-- R38 -/
  noticed : ∀ {t p} n, holds t p → holds t ((p.postureSide t n).orientSide t n)
  /-- R58 -/
  retuned : ∀ {t u p}, tuningInRange u → holds t p → holds u (p.retuned u)

/-- The law holds and, where `C` asks for it, the forcing situation is the one of R35. -/
def Stands (L : LockLaw) (C : Prop) (s : State) : Prop :=
  L.holds s.settings.tuning s.pe ∧ (C → s.pe.situation = situationNow s)

/-- The operation keeps the law, and the situation up to date. -/
abbrev Keeps (L : LockLaw) (f : State → State) : Prop := ∀ {C s}, Stands L C s → Stands L C (f s)

/-- The operation keeps the law and leaves the situation up to date, whatever it was before. -/
abbrev Settles (L : LockLaw) (f : State → State) : Prop := ∀ {C s}, Stands L False s → Stands L C (f s)

variable {L : LockLaw} {C H : Prop} {s t : State}

/-- The law alone, where BM's state or LIDH has just changed. -/
theorem Stands.stale (h : L.holds s.settings.tuning s.pe) : Stands L False s := ⟨h, False.elim⟩

theorem Settles.keeps {f : State → State} (hf : Settles L f) : Keeps L f := fun h => hf (.stale h.1)

/-- The parts of the state that a law and the situation look at. -/
def lawParts : List Part := [.tuning, .locks, .forcing, .magnets, .bmState]

theorem Stands.through {m : List Part} (h : Stands L C s) (c : Changes m s t)
    (hm : ∀ p ∈ lawParts, p ∉ m) : Stands L C t := by
  have htuning : t.settings.tuning = s.settings.tuning := c.same .tuning (hm _ (by decide))
  have hlocks : (t.pe.posture, t.pe.orient) = (s.pe.posture, s.pe.orient) := c.same .locks (hm _ (by decide))
  have hforcing : t.pe.situation = s.pe.situation := c.same .forcing (hm _ (by decide))
  have hmagnets : (t.sfe.lid, t.sfe.fold) = (s.sfe.lid, s.sfe.fold) := c.same .magnets (hm _ (by decide))
  have hbm : t.bm.state = s.bm.state := c.same .bmState (hm _ (by decide))
  obtain ⟨hposture, horient⟩ := Prod.mk.inj hlocks
  obtain ⟨hlid, -⟩ := Prod.mk.inj hmagnets
  refine ⟨?_, fun hc => ?_⟩
  · rw [htuning]; exact L.blind hposture horient hforcing h.1
  · simp only [hforcing, situationNow, hlid, hbm]; exact h.2 hc

/-! ### Free orders, timers and ends -/

theorem keeps_id : Keeps L id := fun h => h

theorem Keeps.when {f : State → State} (b : Bool) (hf : Keeps L f) : Keeps L (if b = true then f else id) := fun h => by
  cases b with
  | false => exact h
  | true => exact hf h

theorem Keeps.eitherOrder {f g : State → State} (hf : Keeps L f) (hg : Keeps L g) : Keeps L (eitherOrder f g) :=
  fun h => eitherOrder_holds (hg (hf h)) (hf (hg h))

theorem Keeps.anyOrder {f g k : State → State} (hf : Keeps L f) (hg : Keeps L g) (hk : Keeps L k) :
    Keeps L (anyOrder f g k) :=
  fun h => anyOrder_keeps (fun _ h => h) (fun _ => hf) (fun _ => hg) (fun _ => hk) h

theorem Keeps.raceLc {emit act : State → State} (he : Keeps L emit) (ha : Keeps L act) : Keeps L (raceLc emit act) :=
  fun h => raceLc_keeps (fun _ h => h) (fun _ => he) (fun _ => ha) h

/-- One act that settles is enough, whichever comes first. -/
theorem Settles.eitherOrder {f g : State → State} (hf : Settles L f) (hg : Keeps L g) : Settles L (eitherOrder f g) :=
  fun h => eitherOrder_holds (hg (hf h)) (hf (hg h))

theorem Settles.anyOrder {f g k : State → State} (hf : Settles L f) (hg : Keeps L g) (hk : Keeps L k) :
    Settles L (anyOrder f g k) := fun h => by
  unfold Machine.anyOrder
  split
  · exact hg.eitherOrder hk (hf h)
  · split
    · exact hf.eitherOrder hk (hg h)
    · exact hf.eitherOrder hg (hk h)

theorem Keeps.onExpiry {f : State → State} (hf : Keeps L f) (timer : Timer) : Keeps L (onExpiry timer f) := fun h => by
  unfold Machine.onExpiry
  split
  · exact h
  · exact hf h

theorem Keeps.onEnd {f : State → State} (hf : Keeps L f) (inFlight : Bool) : Keeps L (onEnd inFlight f) := fun h => by
  unfold Machine.onEnd
  split
  · exact hf h
  · exact h

/-! ### Messages -/

theorem offer_keeps (e : Event) : Keeps L (offer e) := fun h => h.through (offer_changes e _) (by decide)

theorem rise_keeps (c : Cond) (detail : Nat) : Keeps L (rise c detail) :=
  fun h => h.through (rise_changes c detail _) (by decide)

theorem answer_keeps (place : Nat) (r : Reply) : Keeps L (answer place r) :=
  fun h => h.through (answer_changes place r _) (by decide)

/-! ### PE's record -/

theorem settled_locks (old p : Pe) :
    (settled old p).posture = p.posture ∧ (settled old p).orient = p.orient ∧
    (settled old p).situation = p.situation := by
  unfold settled
  dsimp only
  split <;> exact ⟨rfl, rfl, rfl⟩

theorem peStep_stands {report : State → State} {p : Pe} (hr : Keeps L report) (hp : L.holds s.settings.tuning p)
    (hs : C → p.situation = situationNow s) : Stands L C (peStep report p s) := by
  obtain ⟨hposture, horient, hsituation⟩ := settled_locks s.pe p
  have hq : Stands L C { s with pe := settled s.pe p } :=
    ⟨L.blind hposture horient hsituation hp, fun hc => hsituation.trans (hs hc)⟩
  unfold peStep
  dsimp only
  split
  · exact Keeps.raceLc (fun h => h.through (emitPosture_changes _ _ _) (by decide)) hr hq
  · exact hr hq

theorem spuView_keeps : Keeps L spuView := fun h => h.through (spuView_changes _) (by decide)

theorem breakBase_keeps : Keeps L breakBase := fun h => peStep_stands spuView_keeps (L.broken h.1) h.2

theorem breakBoth_keeps : Keeps L breakBoth := fun h => peStep_stands spuView_keeps (L.broken h.1) h.2

theorem breakRecovery_keeps : Keeps L breakRecovery := fun h => peStep_stands spuView_keeps (L.recovered h.1) h.2

/-! ### Part modes and wake causes -/

theorem sfeView_keeps : Keeps L sfeView := fun h => h.through (sfeView_changes _) (by decide)

theorem compareStream_keeps : Keeps L compareStream := fun h => by
  unfold compareStream
  split
  · split
    · exact h
    · exact breakBase_keeps (sfeView_keeps h)
  · split
    · exact h.through (quiesceStream_changes _) (by decide)
    · exact h

theorem sfeMode_keeps (old : PartMode) : Keeps L (sfeMode old) := fun h => by
  unfold sfeMode
  split
  · exact h
  · split
    · exact breakBoth_keeps h
    · exact h

theorem bmMode_keeps (old : PartMode) : Keeps L (bmMode old) := fun h => by
  unfold bmMode
  split
  · exact h
  · exact compareStream_keeps h

theorem peMode_keeps : Keeps L peMode := fun h => h.through (peMode_changes _) (by decide)

theorem chooseMode_keeps : Keeps L chooseMode := fun h => by
  unfold chooseMode
  split
  · exact h
  · exact peMode_keeps (bmMode_keeps _ (sfeMode_keeps _ h))

theorem cause_keeps (c : WakeCause) : Keeps L (cause c) := fun {C s} h => by
  unfold cause takeCause
  split
  · cases s.spu.state with
    | asleep => exact chooseMode_keeps h
    | _ => exact h
  · exact h

theorem spuPosture_keeps (changed : Bool) : Keeps L (spuPosture changed) := fun h => by
  unfold spuPosture
  split
  · exact cause_keeps _ (spuView_keeps h)
  · exact spuView_keeps h

theorem spuLid_keeps (level : Level) : Keeps L (spuLid level) := fun h => by
  unfold spuLid
  split
  · exact h
  · split
    · split
      · exact cause_keeps _ h
      · exact h
    · exact h

theorem wakeExpired_keeps : Keeps L wakeExpired := fun h => by
  unfold wakeExpired
  split
  · exact h
  · exact chooseMode_keeps (rise_keeps _ _ h)

/-! ### PE's own acts -/

theorem peChange_stands {p : Pe} (hp : L.holds s.settings.tuning p) (hs : C → p.situation = situationNow s) :
    Stands L C (peChange p s) := peStep_stands (spuPosture_keeps _) hp hs

theorem Pe.force_situation (new : Situation) (p : Pe) : (p.force new).situation = new := by
  unfold Pe.force
  split
  · exact Eq.symm ‹_›
  · cases new <;> rfl

/-- R35: a re-evaluation brings the situation up to date. -/
theorem peForcing_settles : Settles L peForcing := fun h => by
  unfold peForcing
  split
  · exact ⟨h.1, fun _ => Eq.symm ‹_›⟩
  · exact peChange_stands (L.forced _ h.1) fun _ => Pe.force_situation _ _

theorem peBm_settles : Settles L peBm := fun {_ s} h =>
  peForcing_settles (.stale (L.blind (p := s.pe) rfl rfl rfl h.1))

theorem Pe.freshen_locks (limit : Nat) (yields : Bool) (p : Pe) :
    (p.freshen limit yields).posture = p.posture ∧ (p.freshen limit yields).orient = p.orient ∧
    (p.freshen limit yields).situation = p.situation := by
  unfold Pe.freshen
  split <;> exact ⟨rfl, rfl, rfl⟩

/-- R38: a notice is counted by a posture machine that is ACQUIRING or LOCKED, and leaves one that is HELD or HALTED. -/
theorem Pe.postureSide_locks (t : Tuning) (n : Notice) (p : Pe) :
    (p.postureSide t n).posture =
      takeVerdict t.postureAcquire t.postureChange (classifyPosture t p.posture.value p.offset n).1 p.posture ∧
    (p.postureSide t n).orient = p.orient ∧ (p.postureSide t n).situation = p.situation := by
  have hold : p.posture.state = .held ∨ p.posture.state = .halted →
      ∀ v, takeVerdict t.postureAcquire t.postureChange v p.posture = p.posture := by
    rintro (h | h) (_ | _) <;> simp [takeVerdict, takeCandidate, h]
  unfold Pe.postureSide
  dsimp only
  split
  · exact Pe.freshen_locks _ _ _
  · exact Pe.freshen_locks _ _ _
  · rw [hold (.inl ‹_›)]; exact Pe.freshen_locks _ _ _
  · rw [hold (.inr ‹_›)]; exact Pe.freshen_locks _ _ _

theorem sampleNotice_keeps (n : Notice) : Keeps L (sampleNotice n) := fun {_ s} h =>
  peChange_stands (L.noticed n h.1) fun hc => (Pe.postureSide_locks s.settings.tuning n s.pe).2.2.trans (h.2 hc)

theorem peHalt_keeps : Keeps L peHalt := fun h => peChange_stands (L.halted h.1) h.2

theorem peOffset_keeps (offset : Int) : Keeps L (peOffset offset) :=
  fun h => h.through (peOffset_changes offset _) (by decide)

theorem replaceTuning_keeps {u : Tuning} (hu : tuningInRange u) : Keeps L (replaceTuning u) := fun {C s} h => by
  have retuned : Stands L C (peStep spuView (s.pe.retuned u) { s with
      settings := { s.settings with tuning := u }
      sfe := { s.sfe with divider := if u.divider = s.settings.tuning.divider then s.sfe.divider else 0 } }) :=
    peStep_stands spuView_keeps (L.retuned hu h.1) h.2
  unfold replaceTuning
  dsimp only
  split
  · exact retuned
  · exact breakBoth_keeps retuned

/-! ### The pen -/

theorem spuPen_keeps (c : Option WakeCause) : Keeps L (spuPen c) := fun h => by
  unfold spuPen
  split
  · split
    · exact chooseMode_keeps (cause_keeps _ h)
    · exact Keeps.eitherOrder (cause_keeps _) chooseMode_keeps h
  · exact chooseMode_keeps h

theorem pdcStep_keeps (c : Option WakeCause) {f : State → State} (hf : Keeps L f) : Keeps L (pdcStep c f) := fun h => by
  unfold pdcStep
  dsimp only
  split
  · exact Keeps.when _ (offer_keeps _) (hf h)
  · exact Keeps.raceLc (Keeps.when _ (offer_keeps _)) (spuPen_keeps c) (hf h)

theorem pdcSupply_keeps : Keeps L pdcSupply :=
  pdcStep_keeps _ fun h => h.through (changeReasons_changes _ _) (by decide)

theorem noticePen_keeps : Keeps L noticePen := fun h => by
  unfold noticePen
  split
  · exact pdcStep_keeps _ (fun h => h.through (takeNotice_changes _ _) (by decide)) h
  · exact h

theorem removePen_keeps : Keeps L removePen := fun h => h.through (removePen_changes _) (by decide)

theorem enterFault_keeps (reason : PenFault) : Keeps L (enterFault reason) :=
  fun h => h.through (enterFault_changes reason _) (by decide)

theorem settlePen_keeps : Keeps L settlePen := fun h => chooseMode_keeps h

theorem penAfresh_keeps : Keeps L penAfresh := fun h => by
  unfold penAfresh
  split
  · exact settlePen_keeps h
  · exact h

theorem pdetChanged_keeps (level : Level) : Keeps L (pdetChanged level) := fun h => by
  unfold pdetChanged
  dsimp only
  split
  · exact h
  · split
    · exact settlePen_keeps h
    · exact h
    · exact chooseMode_keeps h
    · exact h
    · exact h
    · exact h

theorem enterIdentifying_keeps : Keeps L enterIdentifying := fun h => h

theorem startPoll_keeps : Keeps L startPoll := fun h => h

theorem endPoll_keeps : Keeps L endPoll := fun h => h

theorem penSettled_keeps : Keeps L penSettled := fun h =>
  pdcStep_keeps (some .penInserted) (fun h => startPoll_keeps (enterIdentifying_keeps h)) h

theorem penRemoved_keeps : Keeps L penRemoved := fun h => penAfresh_keeps (pdcStep_keeps _ removePen_keeps h)

theorem penStatusArrived_keeps (intact : Bool) (st : PenStatus) : Keeps L (penStatusArrived intact st) := fun h => by
  have endsPoll : Keeps L (pdcStep none fun s => endPoll (takeStatus (saturateStatus st) s)) :=
    pdcStep_keeps _ fun h => endPoll_keeps (h.through (takeStatus_changes _ _) (by decide))
  unfold penStatusArrived handleStatus
  dsimp only
  split
  · split
    · exact endsPoll (pdcStep_keeps _ enterIdentifying_keeps (pdcStep_keeps _ removePen_keeps h))
    · exact endsPoll h
  · exact h

theorem pollUnanswered_keeps : Keeps L pollUnanswered := pdcStep_keeps _ fun h => by
  dsimp only
  split
  · exact endPoll_keeps (enterFault_keeps _ h)
  · exact endPoll_keeps h

theorem penReading_keeps (current : Nat) : Keeps L (penReading current) := fun h => by
  unfold penReading
  split
  · split
    · split
      · exact h
      · split
        · exact pdcStep_keeps _ (fun h => h.through (reachFull_changes _) (by decide)) h
        · exact h
    · exact h
  · exact h

theorem prechargeExpired_keeps : Keeps L prechargeExpired := fun h => by
  unfold prechargeExpired
  split
  · exact pdcStep_keeps _ (enterFault_keeps _) h
  · exact h

theorem safetyExpired_keeps : Keeps L safetyExpired := fun h => by
  unfold safetyExpired
  split
  · exact pdcStep_keeps _ (enterFault_keeps _) h
  · exact h

theorem replacePen_keeps (p : PenSettings) : Keeps L (replacePen p) := pdcStep_keeps _ fun {C s} h => by
  have reasons : ∀ new, Stands L C (changeReasons new { s with settings := { s.settings with pen := p } }) := fun new =>
    Stands.through (s := { s with settings := { s.settings with pen := p } }) h (changeReasons_changes new _)
      (by decide)
  dsimp only
  split
  · exact (reasons _).through (enterPhase_changes _ _) (by decide)
  · exact reasons _

/-! ### The base -/

theorem fileBase_keeps (amount : Nat) : Keeps L (fileBase amount) := fun h => noticePen_keeps h

theorem fileLatch_keeps : Keeps L fileLatch := fun h => noticePen_keeps h

theorem withdrawBase_keeps : Keeps L withdrawBase := fun h => by
  unfold withdrawBase
  split
  · exact h
  · exact noticePen_keeps h

theorem withdrawLatch_keeps : Keeps L withdrawLatch := fun h => by
  unfold withdrawLatch
  split
  · exact h
  · exact noticePen_keeps h

theorem spuBm_keeps (attach : Bool) : Keeps L (spuBm attach) := fun h => by
  unfold spuBm
  split
  · exact chooseMode_keeps (cause_keeps _ h)
  · exact chooseMode_keeps h

/-- R62: after BM's report of a change of its state PE's situation is the one of R35. Where the model leaves PE's part
of the report out, PE has nothing to do (`peQuiet`). -/
theorem bmReport_settles (attach : Bool) {acts : State → State} (ha : Keeps L acts) :
    Settles L (bmReport attach acts) := fun {C s} h => by
  have hv : Stands L False (sfeView s) := sfeView_keeps h
  unfold bmReport
  dsimp only
  split
  · rename_i hquiet
    obtain ⟨hpe, -, -⟩ := hquiet
    simp only [peQuiet, Bool.and_eq_true, decide_eq_true_eq] at hpe
    exact ha ⟨hv.1, fun _ => hpe.1.symm⟩
  · exact Settles.anyOrder peBm_settles (spuBm_keeps attach) ha hv

theorem takeAfresh_keeps : Keeps L takeAfresh := fun {C s} h => by
  unfold takeAfresh
  split
  · rename_i habsent
    exact ⟨h.1, fun hc => (h.2 hc).trans (by simp [situationNow, toSettling, habsent.1, BmState.hinged])⟩
  · exact h

theorem bpresChanged_keeps (level : Level) : Keeps L (bpresChanged level) := fun h => by
  unfold bpresChanged
  dsimp only
  split
  · exact h
  · split
    · exact bmReport_settles _ keeps_id (.stale h.1)
    · exact h
    · exact bmReport_settles _ keeps_id (.stale h.1)
    · exact h
    · exact h
    · exact h

theorem askIdentity_keeps : Keeps L askIdentity := fun h => h

theorem startIdentify_settles : Settles L startIdentify := fun h =>
  bmReport_settles _ askIdentity_keeps (.stale h.1)

theorem powerIfGranted_keeps : Keeps L powerIfGranted := fun h => by
  unfold powerIfGranted
  split
  · exact startIdentify_settles (.stale h.1)
  · exact h

theorem toPowering_settles (amount : Nat) : Settles L (toPowering amount) := fun h =>
  powerIfGranted_keeps (fileBase_keeps amount (bmReport_settles _ keeps_id (.stale h.1)))

theorem lossOfPowerAfter_settles {first : State → State} (hf : Keeps L first) : Settles L (lossOfPowerAfter first) :=
  fun h => powerIfGranted_keeps (fileBase_keeps _
    (bmReport_settles _ (fun h => offer_keeps _ (rise_keeps _ _ (hf h))) (.stale h.1)))

theorem queryExpired_keeps : Keeps L queryExpired := fun h => by
  unfold queryExpired
  dsimp only
  split
  · exact h
  · exact bmReport_settles _ (rise_keeps _ _) (withdrawBase_keeps (.stale h.1))
  · exact h

theorem setTable_keeps (table : List BaseEntry) : Keeps L (setTable table) :=
  fun h => h.through (setTable_changes table _) (by decide)

theorem createEntry_keeps (i : Identity) : Keeps L (createEntry i) :=
  fun h => h.through (createEntry_changes i _) (by decide)

theorem toAttached_settles (i : Identity) : Settles L (toAttached i) := fun {C s} h =>
  bmReport_settles true
    (fun h =>
      ((breakBase_keeps h).through (startStream_changes _) (by decide)).through (emitAttached_changes _ _ _) (by decide))
    (.stale (L.blind (p := s.pe) rfl rfl rfl h.1))

theorem toRefused_settles (i : Identity) : Settles L (toRefused i) := fun h =>
  bmReport_settles _ (offer_keeps _) (withdrawBase_keeps (.stale h.1))

theorem identityCheck_settles (i : Identity) : Settles L (identityCheck i) := fun h => by
  unfold identityCheck
  split
  · exact toAttached_settles i (setTable_keeps _ h)
  · split
    · exact toAttached_settles i (createEntry_keeps i h)
    · exact toRefused_settles i h

theorem takeIdent_keeps (i : Identity) : Keeps L (takeIdent i) := fun h => by
  unfold takeIdent
  dsimp only
  split
  · split
    · exact identityCheck_settles i (fileBase_keeps _ (.stale h.1))
    · exact toPowering_settles _ (fileBase_keeps _ (.stale h.1))
  · exact h

theorem attachAbandoned_settles : Settles L attachAbandoned := fun h => by
  unfold attachAbandoned
  dsimp only
  split
  · exact takeAfresh_keeps (bmReport_settles _ keeps_id (withdrawBase_keeps (.stale h.1)))
  · exact takeAfresh_keeps (bmReport_settles _ keeps_id (withdrawBase_keeps (.stale h.1)))

theorem baseLoss_settles : Settles L baseLoss := fun h =>
  takeAfresh_keeps (bmReport_settles _ (fun h => offer_keeps _ (rise_keeps _ _ h)) (withdrawBase_keeps (.stale h.1)))

theorem activeOffset_keeps (offset : Int) : Keeps L (activeOffset offset) := fun h =>
  breakBase_keeps (peOffset_keeps _ h)

theorem putOffset_keeps (e : BaseEntry) (offset : Int) : Keeps L (putOffset e offset) := fun h => by
  unfold putOffset
  dsimp only
  split
  · exact h
  · split
    · exact activeOffset_keeps _ (setTable_keeps _ h)
    · exact setTable_keeps _ h

theorem serveForgetBase_keeps (place : Nat) (payload : List Byte) : Keeps L (serveForgetBase place payload) :=
  fun h => by
  unfold serveForgetBase
  split
  · exact answer_keeps _ _ h
  · refine Keeps.raceLc (answer_keeps _ _) (fun h => ?_) h
    unfold forgetActive
    dsimp only
    split
    · split
      · exact setTable_keeps _ h
      · exact activeOffset_keeps _ (setTable_keeps _ h)
    · exact setTable_keeps _ h

theorem serveSetBaseOffset_keeps (place : Nat) (payload : List Byte) :
    Keeps L (serveSetBaseOffset place payload) := fun h => by
  unfold serveSetBaseOffset
  split
  · exact answer_keeps _ _ h
  · exact Keeps.raceLc (answer_keeps _ _) (putOffset_keeps _ _) h

theorem serveCalibrateHinge_keeps (place : Nat) (payload : List Byte) :
    Keeps L (serveCalibrateHinge place payload) := fun h => by
  unfold serveCalibrateHinge
  split
  · exact answer_keeps _ _ h
  · exact Keeps.raceLc (answer_keeps _ _) (putOffset_keeps _ _) h

theorem serveAcceptBase_keeps (place : Nat) : Keeps L (serveAcceptBase place) := fun h => by
  unfold serveAcceptBase
  split
  · exact toPowering_settles _ (answer_keeps _ _ (createEntry_keeps _ (.stale h.1)))
  · exact answer_keeps _ _ h

/-! ### The detach sequence -/

theorem offerResult_keeps (o : DetachOutcome) (serial : Option Serial) : Keeps L (offerResult o serial) :=
  fun h => h.through (offerResult_changes o serial _) (by decide)

theorem endAttemptAfter_settles {first : State → State} (hf : Keeps L first) (o : DetachOutcome) :
    Settles L (endAttemptAfter first o) := fun {C s} h => by
  have tell : Keeps L fun t => offerResult o s.bm.active (first t) := fun h => offerResult_keeps _ _ (hf h)
  unfold endAttemptAfter
  dsimp only
  split
  · rcases eitherTime_cases (fun t => offerResult o s.bm.active (first t)) lossOfPowerAfter
      { s with det := s.det.ended o s.now } with e | e <;> rw [e]
    · exact lossOfPowerAfter_settles keeps_id (tell (.stale h.1))
    · exact lossOfPowerAfter_settles tell (.stale h.1)
  · exact bmReport_settles _ (Keeps.raceLc tell compareStream_keeps) (.stale h.1)

theorem endAttempt_settles (o : DetachOutcome) : Settles L (endAttempt o) := endAttemptAfter_settles keeps_id o

theorem endStuck_settles (detail : Nat) : Settles L (endStuck detail) := endAttemptAfter_settles (rise_keeps _ _) _

theorem toClosing_settles (why : ClosingReason) : Settles L (toClosing why) := fun {C s} h => by
  have closing := withdrawLatch_keeps (L := L)
    (s := { s with det := { s.det with lsol := false, timer := none } }) (.stale h.1)
  unfold toClosing
  dsimp only
  split
  · exact endAttempt_settles _ (bmReport_settles _ compareStream_keeps (.stale closing.1))
  · exact bmReport_settles _ compareStream_keeps (.stale closing.1)

theorem openCheck_keeps : Keeps L openCheck := fun h => h.through (openCheck_changes _) (by decide)

theorem toReleasing_settles : Settles L toReleasing := fun {C s} h => by
  have filed := fun t ht => fileLatch_keeps (C := C) (bmReport_settles (L := L) (s := t) false compareStream_keeps ht)
  unfold toReleasing
  dsimp only
  split
  · exact openCheck_keeps (filed _ (.stale h.1))
  · exact filed _ (.stale h.1)

theorem giveUpLatch_settles (o : DetachOutcome) : Settles L (giveUpLatch o) := fun h =>
  endAttempt_settles o (withdrawLatch_keeps h)

theorem noticeBase_keeps : Keeps L noticeBase := fun h => by
  unfold noticeBase
  split
  · exact powerIfGranted_keeps h
  · split
    · exact h
    · exact toPowering_settles _ (.stale h.1)
  · split
    · exact h
    · exact lossOfPowerAfter_settles keeps_id (.stale h.1)
  · split
    · exact h
    · exact lossOfPowerAfter_settles keeps_id (.stale h.1)
  · split <;> exact h
  · split <;> exact h
  · exact h
  · exact h
  · exact h
  · exact h

theorem noticeLatch_keeps : Keeps L noticeLatch := fun h => by
  unfold noticeLatch
  split
  · split
    · exact openCheck_keeps h
    · split
      · exact toClosing_settles _ (.stale h.1)
      · exact h
  · exact h

theorem noticeAll_keeps (old : Grants) : Keeps L (noticeAll old) := fun h => by
  unfold noticeAll
  dsimp only
  split
  · exact Keeps.anyOrder (Keeps.when _ noticeBase_keeps) (Keeps.when _ noticeLatch_keeps) noticePen_keeps h
  · exact noticePen_keeps (Keeps.when _ noticeLatch_keeps (Keeps.when _ noticeBase_keeps h))

theorem askConsent_settles : Settles L askConsent := fun h =>
  bmReport_settles _ (Keeps.raceLc (offer_keeps _) compareStream_keeps) (.stale h.1)

theorem pressAttached_keeps : Keeps L pressAttached := fun h => by
  unfold pressAttached
  dsimp only
  split
  · exact h
  · split
    · exact askConsent_settles (.stale h.1)
    · split
      · exact toReleasing_settles (.stale h.1)
      · exact offerResult_keeps _ _ h

theorem pressReleasing_settles : Settles L pressReleasing := fun h => by
  unfold pressReleasing
  split
  · exact toClosing_settles _ h
  · exact giveUpLatch_settles _ h

theorem press_keeps : Keeps L press := fun h => by
  have told := cause_keeps .detachButton h
  unfold press bmPress
  split
  · exact pressAttached_keeps told
  · exact endAttempt_settles _ (.stale told.1)
  · exact pressReleasing_settles (.stale told.1)
  all_goals exact told

theorem buttonHeld_keeps : Keeps L buttonHeld := fun h => by
  unfold buttonHeld
  dsimp only
  split
  · exact press_keeps h
  · exact h

theorem bmLid_keeps (level : Level) : Keeps L (bmLid level) := fun h => by
  unfold bmLid
  split
  · exact endAttempt_settles _ (.stale h.1)
  · exact h

theorem consentExpired_settles : Settles L consentExpired := fun h => by
  unfold consentExpired
  split
  · exact endAttempt_settles _ h
  · exact toReleasing_settles h

theorem openCheckFailed_settles : Settles L openCheckFailed := fun h => endStuck_settles _ (withdrawLatch_keeps h)

theorem closeCheckFailed_settles : Settles L closeCheckFailed := endStuck_settles _

theorem lswChanged_keeps (pos : LatchPos) : Keeps L (lswChanged pos) := fun h => by
  unfold lswChanged
  dsimp only
  split
  · split <;> exact h
  · split
    · exact endAttempt_settles _ (.stale h.1)
    · exact h

theorem baseDetach_settles : Settles L baseDetach := fun {C s} h => by
  have latch : Stands L False (withdrawLatch { s with det := { s.det with lsol := false, timer := none } }) :=
    withdrawLatch_keeps h
  have base : ∀ b, Stands L False (withdrawBase
      { withdrawLatch { s with det := { s.det with lsol := false, timer := none } } with bm := b }) :=
    fun b => withdrawBase_keeps (.stale latch.1)
  exact takeAfresh_keeps (bmReport_settles _ (fun h => offer_keeps _ (offerResult_keeps _ _ h)) (.stale (base _).1))

theorem baseIsGone_keeps : Keeps L baseIsGone := fun h => by
  unfold baseIsGone
  split
  iterate 4 exact attachAbandoned_settles (.stale h.1)
  iterate 2 exact baseLoss_settles (.stale h.1)
  iterate 2 exact baseDetach_settles (.stale h.1)
  iterate 2 exact h

theorem consentAllowed_settles (place : Nat) : Settles L (consentAllowed place) := fun h =>
  toReleasing_settles (answer_keeps _ _ h)

theorem serveDetachConsent_keeps (place : Nat) (payload : List Byte) :
    Keeps L (serveDetachConsent place payload) := fun h => by
  unfold serveDetachConsent
  split
  · split
    · exact answer_keeps _ _ h
    · split
      · split
        · exact consentAllowed_settles _ (.stale h.1)
        · exact endAttempt_settles _ (answer_keeps _ _ (.stale h.1))
      · exact answer_keeps _ _ h
  · exact answer_keeps _ _ h

theorem serveRequestDetach_keeps (place : Nat) : Keeps L (serveRequestDetach place) := fun h => by
  unfold serveRequestDetach
  split
  · split
    · exact answer_keeps _ _ h
    · exact toReleasing_settles (answer_keeps _ _ (.stale h.1))
  · exact consentAllowed_settles _ (.stale h.1)
  · exact answer_keeps _ _ h

/-! ### Scans, display reads and magnet inputs -/

theorem handOn_keeps (old : Sm) (vsys : Nat) (temp : Int) : Keeps L (handOn old vsys temp) := fun {C s} h => by
  have bands : Stands L C (handBands old vsys temp s) := by
    unfold handBands
    split
    · exact h.through (reportBands_changes _ _ _ _) (by decide)
    · exact Keeps.anyOrder pdcSupply_keeps (fun h => h.through (spuSupply_changes _) (by decide))
        (fun h => h.through (reportBands_changes _ _ _ _) (by decide)) h
  have capacity : Stands L C (handCapacity (handBands old vsys temp s)) := noticeAll_keeps _ bands
  exact capacity.through (offerSupply_changes _) (by decide)

theorem scanCompleted_keeps (vsys : Nat) (temp : Int) (pen : Nat) : Keeps L (scanCompleted vsys temp pen) :=
  fun {C s} h => by
  have read : ∀ c m, Stands L C (penReading c { s with sm := m }) := fun c _ => penReading_keeps c h
  unfold scanCompleted
  dsimp only
  split
  · exact read _ _
  · exact handOn_keeps _ _ _ (read _ _)

theorem readFailed_keeps (code : Nat) : Keeps L (readFailed code) := fun h => by
  unfold readFailed
  dsimp only
  split
  · exact h
  · split
    · exact Keeps.eitherOrder (rise_keeps _ _) peHalt_keeps h
    · exact h

theorem takeBaseSample_keeps (v : Vec3) : Keeps L (takeBaseSample v) := fun {C s} h => by
  have restarted : Stands L C (if s.sfe.late = true then
      breakBase (fall .baseSamplesLate { s with sfe := { s.sfe with late := false } }) else s) := by
    split
    · exact breakBase_keeps h
    · exact h
  unfold takeBaseSample
  dsimp only
  split
  · exact restarted
  · exact restarted

theorem baseSampleArrived_keeps (v : Vec3) : Keeps L (baseSampleArrived v) := fun h => by
  unfold baseSampleArrived
  split
  · exact takeBaseSample_keeps v h
  · exact h

theorem recordDisplay_keeps (v : Vec3) : Keeps L (recordDisplay v) := fun h => h

theorem judge_keeps : Keeps L judge := fun h => h.through (judge_changes _) (by decide)

theorem processSample_keeps (v : Vec3) : Keeps L (processSample v) := fun h =>
  (sampleNotice_keeps _ (judge_keeps (recordDisplay_keeps v h))).through (advanceDivider_changes _) (by decide)

theorem readSampled_keeps (v : Vec3) : Keeps L (readSampled v) := fun h => by
  unfold readSampled
  dsimp only
  split
  · exact h
  · split
    · exact processSample_keeps v (breakRecovery_keeps h)
    · exact processSample_keeps v h

/-- R18 and R35: PE re-evaluates the situation at every report of LIDH, in whichever order the owners take it. -/
theorem lidReported_settles (level : Level) : Settles L (lidReported level) := fun h => by
  unfold lidReported
  split
  · exact peForcing_settles.anyOrder (spuLid_keeps _) (bmLid_keeps _) h
  · split
    · exact peForcing_settles.eitherOrder (spuLid_keeps _) h
    · exact spuLid_keeps _ (peForcing_settles h)

theorem magnetHeld_keeps (m : Magnet) : Keeps L (magnetHeld m) := fun h => by
  unfold magnetHeld
  dsimp only
  split
  · exact lidReported_settles _ (breakBoth_keeps (.stale h.1))
  · exact lidReported_settles _ (.stale h.1)
  · exact h

/-- R17: a raw level changes the debounced level only when its hold time has run out. -/
theorem MagnetRec.change_level (hall now : Nat) (level : Level) (r : MagnetRec) :
    (r.change hall now level).level = r.level := by
  unfold MagnetRec.change
  split
  · rfl
  · split <;> rfl

theorem magnetChanged_keeps (m : Magnet) (level : Level) : Keeps L (magnetChanged m level) := fun {C s} h => by
  have hlevel : (magnetChanged m level s).sfe.lid.level = s.sfe.lid.level := by
    cases m with
    | lid => exact MagnetRec.change_level _ _ _ _
    | fold => rfl
  refine ⟨h.1, fun hc => (h.2 hc).trans ?_⟩
  simp only [situationNow, hlevel]
  rfl

/-! ### Requests -/

theorem serveHostState_keeps (place : Nat) (payload : List Byte) : Keeps L (serveHostState place payload) :=
  fun {C s} h => by
  have replied : ∀ u r, Stands L C (answer place r { s with spu := u }) := fun _ r => answer_keeps place r h
  unfold serveHostState takeHostState
  split
  · exact answer_keeps _ _ h
  · have offerIf_keeps : ∀ e, Keeps L (offerIf e) := fun e _ _ h => h.through (offerIf_changes e _) (by decide)
    exact chooseMode_keeps (offerIf_keeps _ (offerIf_keeps _ (replied _ _)))

theorem replaceSleep_keeps (p : SleepPolicy) : Keeps L (replaceSleep p) := fun h => by
  have reEnable_keeps : ∀ old t, Keeps L (reEnable old t) := fun old t _ _ h =>
    h.through (reEnable_changes old t _) (by decide)
  unfold replaceSleep
  dsimp only
  split
  · exact chooseMode_keeps (Keeps.anyOrder (reEnable_keeps _ _) (reEnable_keeps _ _) (reEnable_keeps _ _) h)
  · exact chooseMode_keeps (reEnable_keeps _ _ (reEnable_keeps _ _ (reEnable_keeps _ _ h)))

theorem replaceWake_keeps (w : WakeTable) : Keeps L (replaceWake w) := fun h => chooseMode_keeps h

theorem restoreSleep_keeps : Keeps L restoreSleep := fun h => replaceWake_keeps _ (replaceSleep_keeps _ h)

theorem clampTuning_inRange (u : Tuning) : tuningInRange (clampTuning u) := by
  simp only [tuningInRange, clampTuning, clampNat]
  omega

theorem defaultTuning_inRange : tuningInRange defaultTuning := by
  unfold tuningInRange
  decide

/-- R194: the working settings are the defaults, or records that clamping leaves as they are. -/
theorem loadImage_tuning_inRange (i : Image) : tuningInRange (loadImage i).1.tuning := by
  unfold loadImage
  split
  · split
    · rename_i u hread
      unfold readSettings at hread
      split at hread
      · split at hread
        · rename_i hchecks
          obtain ⟨hclamp, -⟩ := hchecks
          cases hread
          exact hclamp ▸ clampTuning_inRange _
        · cases hread
      · cases hread
    · exact defaultTuning_inRange
  · exact defaultTuning_inRange

theorem serveSetTuning_keeps (place : Nat) (payload : List Byte) : Keeps L (serveSetTuning place payload) :=
  Keeps.raceLc (answer_keeps _ _) (replaceTuning_keeps (clampTuning_inRange _))

theorem serveSetPenCharging_keeps (place : Nat) (payload : List Byte) : Keeps L (serveSetPenCharging place payload) :=
  fun h => by
  unfold serveSetPenCharging
  split
  · exact answer_keeps _ _ h
  · exact Keeps.raceLc (answer_keeps _ _) (replacePen_keeps _) h

theorem serveSetSleepPolicy_keeps (place : Nat) (payload : List Byte) : Keeps L (serveSetSleepPolicy place payload) :=
  fun h => by
  unfold serveSetSleepPolicy
  split
  · exact answer_keeps _ _ h
  · exact Keeps.raceLc (answer_keeps _ _) (replaceSleep_keeps _) h

theorem serveSetWakeCauses_keeps (place : Nat) (payload : List Byte) : Keeps L (serveSetWakeCauses place payload) :=
  fun h => by
  unfold serveSetWakeCauses
  split
  · exact answer_keeps _ _ h
  · exact Keeps.raceLc (answer_keeps _ _) (replaceWake_keeps _) h

theorem serveRestoreDefaults_keeps (place : Nat) : Keeps L (serveRestoreDefaults place) := fun {C s} h => by
  have tuning : Keeps L (replaceTuning defaultTuning) := replaceTuning_keeps defaultTuning_inRange
  have owners : Stands L C (restoreOwners s) := by
    unfold restoreOwners
    dsimp only
    split
    · exact Keeps.anyOrder tuning restoreSleep_keeps (replacePen_keeps _) h
    · exact replacePen_keeps _ (restoreSleep_keeps (tuning h))
  have policies : Stands L C (restorePolicies (restoreOwners s)) := owners
  exact answer_keeps _ _ (policies.through (requestCommit_changes _) (by decide))

theorem serve_keeps (place : Nat) (kind : ReqKind) (payload : List Byte) : Keeps L (serve place kind payload) :=
  fun h => by
  cases kind with
  | identify => exact h.through (serveIdentify_changes _ _) (by decide)
  | subscribe => exact h.through (serveSubscribe_changes _ _ _) (by decide)
  | unsubscribe => exact h.through (serveUnsubscribe_changes _ _ _) (by decide)
  | resetPart => exact h.through (serveResetPart_changes _ _) (by decide)
  | getPosture => exact h.through (serveGetPosture_changes _ _) (by decide)
  | getVectors => exact h.through (serveGetVectors_changes _ _) (by decide)
  | setRotationLock => exact h.through (serveSetRotationLock_changes _ _ _) (by decide)
  | setTuning => exact serveSetTuning_keeps _ _ h
  | calibrateHinge => exact serveCalibrateHinge_keeps _ _ h
  | listBases => exact h.through (serveListBases_changes _ _) (by decide)
  | forgetBase => exact serveForgetBase_keeps _ _ h
  | setBaseOffset => exact serveSetBaseOffset_keeps _ _ h
  | acceptBase => exact serveAcceptBase_keeps _ h
  | setBasePolicy => exact h.through (serveSetBasePolicy_changes _ _ _) (by decide)
  | requestDetach => exact serveRequestDetach_keeps _ h
  | detachConsent => exact serveDetachConsent_keeps _ _ h
  | setDetachPolicy => exact h.through (serveSetDetachPolicy_changes _ _ _) (by decide)
  | getSupply => exact h.through (serveGetSupply_changes _ _) (by decide)
  | getPen => exact h.through (serveGetPen_changes _ _) (by decide)
  | setPenCharging => exact serveSetPenCharging_keeps _ _ h
  | hostState => exact serveHostState_keeps _ _ h
  | getSleep => exact h.through (serveGetSleep_changes _ _) (by decide)
  | setSleepPolicy => exact serveSetSleepPolicy_keeps _ _ h
  | setWakeCauses => exact serveSetWakeCauses_keeps _ _ h
  | getConditions => exact h.through (serveGetConditions_changes _ _) (by decide)
  | getHistory => exact h.through (serveGetHistory_changes _ _ _) (by decide)
  | clearConditions => exact h.through (serveClearConditions_changes _ _ _) (by decide)
  | saveSettings => exact h.through (serveSaveSettings_changes _ _) (by decide)
  | restoreDefaults => exact serveRestoreDefaults_keeps _ h

/-! ### The link -/

theorem hand_keeps (sl : Slot) : Keeps L (hand sl) := fun h => serve_keeps _ _ _ h

theorem handWaiting_keeps (n : Nat) : Keeps L (handWaiting n) := by
  induction n with
  | zero => exact fun h => h
  | succ n ih =>
    intro C s h
    unfold handWaiting
    split
    · exact ih (hand_keeps _ h)
    · exact h

theorem afterFrame_keeps : Keeps L afterFrame := fun h => (handWaiting_keeps 4 h).through (kick_changes _) (by decide)

theorem refuse_keeps (item : RefusalItem) : Keeps L (refuse item) :=
  fun h => h.through (refuse_changes item _) (by decide)

theorem accept_keeps (kind : ReqKind) (tag : Byte) (payload : List Byte) : Keeps L (accept kind tag payload) :=
  fun h => by
  unfold accept
  dsimp only
  split
  · exact hand_keeps _ h
  · exact h

theorem goodFrame_keeps (kind : Nat) (tag : Byte) (payload : List Byte) : Keeps L (goodFrame kind tag payload) :=
  fun h => by
  unfold goodFrame
  dsimp only
  split
  · exact refuse_keeps _ h
  · split
    · exact refuse_keeps _ h
    · split
      · exact refuse_keeps _ h
      · exact accept_keeps _ _ _ h

theorem badFrame_keeps : Keeps L badFrame := fun h => refuse_keeps _ h

theorem rxByte_keeps (b : Byte) : Keeps L (rxByte b) := fun h => by
  unfold rxByte
  split
  · exact h
  · exact h
  · exact h
  · split
    · unfold bodyFrame
      split
      · exact goodFrame_keeps _ _ _ h
      · exact badFrame_keeps h
    · exact badFrame_keeps h

/-! ### Resets and commands -/

/-- What a law says of the part between two commands: it stands while the part runs and, where `H` asks for it, holds in
a reset that is held. -/
def Lawful (L : LockLaw) (C H : Prop) (s : State) : Prop :=
  (s.held = none → Stands L C s) ∧ (H → L.holds s.settings.tuning s.pe)

theorem Stands.lawful (h : Stands L C s) : Lawful L C H s := ⟨fun _ => h, fun _ => h.1⟩

/-- R59: the first re-evaluation of forcing ends every reset. -/
theorem endReset_stands (kind : ResetKind) (s : State) : Stands L C (endReset kind s) := by
  have starts : ∀ corrupt, Settles L (startBlocks corrupt) := fun corrupt _ _ h => by
    cases corrupt with
    | none => exact peForcing_settles h
    | some detail =>
      exact eitherOrder_holds (peForcing_settles (rise_keeps _ _ h)) (rise_keeps _ _ (peForcing_settles h))
  exact starts _ (.stale (L.loaded (loadImage_tuning_inRange s.ss.image)))

theorem holdReset_lawful (kind : ResetKind) (h : Lawful L C H s) : Lawful L C H (holdReset kind s) :=
  ⟨fun running => (nomatch running), fun hH => L.restarted (h.2 hH)⟩

theorem beginReset_lawful (kind : ResetKind) (h : Lawful L C H s) : Lawful L C H (beginReset kind s) := by
  unfold beginReset
  split
  · exact holdReset_lawful kind h
  · exact (endReset_stands kind s).lawful

theorem softReset_lawful (h : Lawful L C H s) : Lawful L C H (softReset s) := by
  unfold softReset
  split
  · exact holdReset_lawful _ h
  · split
    · exact (endReset_stands _ _).lawful
    · exact holdReset_lawful _ h

theorem assertReset_lawful (h : Lawful L C H s) : Lawful L C H (assertReset s) := by
  unfold assertReset
  split
  · exact h
  · exact holdReset_lawful _ h
  · rename_i kind _ _
    split
    · exact holdReset_lawful _ h
    · have ended : Lawful L C H (endReset kind s.nextChoice) := (endReset_stands _ _).lawful
      exact holdReset_lawful _ ended

theorem releaseReset_lawful (h : Lawful L C H s) : Lawful L C H (releaseReset s) := by
  unfold releaseReset
  split
  · exact (endReset_stands _ _).lawful
  · exact h

theorem whileRunning_lawful {f : State → State} (hf : ∀ {u}, Stands L C u → Lawful L C H (f u)) (h : Lawful L C H s) :
    Lawful L C H (whileRunning f s) := by
  unfold whileRunning
  split
  · rename_i running; exact hf (h.1 running)
  · exact h
  · exact hf (endReset_stands _ _)

/-- A pin that changes in a reset is recorded only (R176). -/
theorem onInput_lawful {record f : State → State}
    (hr : ∀ u, (record u).held = u.held ∧ (record u).settings = u.settings ∧ (record u).pe = u.pe)
    (hf : Keeps L f) (h : Lawful L C H s) : Lawful L C H (onInput record f s) := by
  have recorded : ∀ u, u.held = s.held → u.settings = s.settings → u.pe = s.pe → s.held ≠ none →
      Lawful L C H (record u) := fun u uheld usettings upe reset => by
    obtain ⟨rheld, rsettings, rpe⟩ := hr u
    refine ⟨fun running => absurd (uheld ▸ rheld ▸ running) reset, fun hH => ?_⟩
    rw [rsettings, rpe, usettings, upe]
    exact h.2 hH
  rcases onInput_cases record f s with ⟨running, e⟩ | ⟨k, held, -, e⟩ | ⟨k, held, -, e | e⟩ <;> rw [e]
  · exact (hf (h.1 running)).lawful
  · exact recorded s rfl rfl rfl (by simp [held])
  · exact recorded s.nextChoice rfl rfl rfl (by simp [held])
  · exact (hf (endReset_stands _ _)).lawful

theorem frameSent_lawful (h : Stands L C s) : Lawful L C H (frameSent s) := by
  have freed : ∀ lc, Stands L C { s with lc := lc } := fun _ => h
  unfold frameSent
  split
  · exact h.lawful
  · dsimp only
    split
    · exact softReset_lawful (freed _).lawful
    · exact (afterFrame_keeps (freed _)).lawful
  · exact (afterFrame_keeps (freed _)).lawful
  · exact (afterFrame_keeps (freed _)).lawful

/-- Every command keeps the laws. -/
theorem exec_lawful (c : Instr) (h : Lawful L C H s) : ∃ t, exec c s = .next t ∧ Lawful L C H t := by
  have run : ∀ {f}, Keeps L f → Lawful L C H (whileRunning f s) := fun hf =>
    whileRunning_lawful (fun h => (hf h).lawful) h
  have expiry : ∀ {f} (timer : State → Timer), Keeps L f →
      Lawful L C H (whileRunning (fun u => onExpiry (timer u) f u) s) := fun timer hf =>
    whileRunning_lawful (fun h => (hf.onExpiry (timer _) h).lawful) h
  have readEnd : ∀ {f}, Keeps L f → Lawful L C H (whileRunning (fun u => onEnd (readInFlight u.sfe) f u) s) := fun hf =>
    whileRunning_lawful (fun h => (hf.onEnd _ h).lawful) h
  have request : ∀ kind tag payload, Lawful L C H (whileRunning (request kind tag payload) s) :=
    fun _ _ _ => run (goodFrame_keeps _ _ _)
  cases c with
  | powerOn => exact ⟨_, rfl, beginReset_lawful _ h⟩
  | brownout => exact ⟨_, rfl, beginReset_lawful _ h⟩
  | nrstAsserted => exact ⟨_, rfl, assertReset_lawful h⟩
  | nrstReleased => exact ⟨_, rfl, releaseReset_lawful h⟩
  | displayPeriodExpiry => exact ⟨_, rfl, expiry _ fun h => h.through (readDue_changes _) (by decide)⟩
  | displayReadSample x y z => exact ⟨_, rfl, readEnd (readSampled_keeps _)⟩
  | displayReadFailure cause => exact ⟨_, rfl, readEnd (readFailed_keeps _)⟩
  | displayReadTimeout =>
    exact ⟨_, rfl, whileRunning_lawful (fun h => (Keeps.onEnd (Keeps.onExpiry (readFailed_keeps 3) _) _ h).lawful) h⟩
  | magnetLevelChange magnet level =>
    refine ⟨_, rfl, onInput_lawful (fun _ => ?_) (magnetChanged_keeps _ _) h⟩
    cases magnet <;> exact ⟨rfl, rfl, rfl⟩
  | hallDebounceExpiry magnet => exact ⟨_, rfl, expiry _ (magnetHeld_keeps _)⟩
  | bpresChange level => exact ⟨_, rfl, onInput_lawful (fun _ => ⟨rfl, rfl, rfl⟩) (bpresChanged_keeps _) h⟩
  | baseSettleTimerExpiry => exact ⟨_, rfl, expiry _ (Settles.keeps (toPowering_settles 120))⟩
  | baseGone => exact ⟨_, rfl, expiry _ fun h => baseIsGone_keeps h⟩
  | queryTimerExpiry => exact ⟨_, rfl, expiry _ queryExpired_keeps⟩
  | cyclingTimerExpiry => exact ⟨_, rfl, expiry _ fun h => h.through (cyclingExpired_changes _) (by decide)⟩
  | ident serial model draw revision => exact ⟨_, rfl, run (takeIdent_keeps _)⟩
  | baseSample x y z => exact ⟨_, rfl, run (baseSampleArrived_keeps _)⟩
  | quiesced => exact ⟨_, rfl, run fun h => h.through (streamPaused_changes _) (by decide)⟩
  | quiesceTimerExpiry => exact ⟨_, rfl, expiry _ fun h => h.through (streamPaused_changes _) (by decide)⟩
  | baseLinkRecordDiscard => exact ⟨_, rfl, h⟩
  | dbtnChange level =>
    exact ⟨_, rfl,
      onInput_lawful (fun _ => ⟨rfl, rfl, rfl⟩) (fun h => h.through (dbtnChanged_changes _ _) (by decide)) h⟩
  | buttonHoldExpiry => exact ⟨_, rfl, expiry _ buttonHeld_keeps⟩
  | consentTimerExpiry => exact ⟨_, rfl, expiry _ consentExpired_settles.keeps⟩
  | grantWaitExpiry => exact ⟨_, rfl, expiry _ (Settles.keeps (giveUpLatch_settles _))⟩
  | lswChange pos => exact ⟨_, rfl, onInput_lawful (fun _ => ⟨rfl, rfl, rfl⟩) (lswChanged_keeps _) h⟩
  | openCheckExpiry => exact ⟨_, rfl, expiry _ openCheckFailed_settles.keeps⟩
  | releaseWindowExpiry => exact ⟨_, rfl, expiry _ (Settles.keeps (toClosing_settles _))⟩
  | closeCheckExpiry => exact ⟨_, rfl, expiry _ closeCheckFailed_settles.keeps⟩
  | blinkTimerExpiry => exact ⟨_, rfl, expiry _ fun h => h.through (blinkEnded_changes _) (by decide)⟩
  | scanPeriodExpiry => exact ⟨_, rfl, expiry _ fun h => h.through (scanDue_changes _) (by decide)⟩
  | scanCompletion vsys temp pen =>
    exact ⟨_, rfl, whileRunning_lawful (fun h => (Keeps.onEnd (scanCompleted_keeps _ _ _) _ h).lawful) h⟩
  | pdetChange level => exact ⟨_, rfl, onInput_lawful (fun _ => ⟨rfl, rfl, rfl⟩) (pdetChanged_keeps _) h⟩
  | penSettleTimerExpiry => exact ⟨_, rfl, expiry _ penSettled_keeps⟩
  | penRemoval => exact ⟨_, rfl, expiry _ penRemoved_keeps⟩
  | pollTimerExpiry => exact ⟨_, rfl, expiry _ startPoll_keeps⟩
  | responseTimerExpiry => exact ⟨_, rfl, expiry _ pollUnanswered_keeps⟩
  | penStatus intact status => exact ⟨_, rfl, run (penStatusArrived_keeps _ _)⟩
  | prechargeTimerExpiry => exact ⟨_, rfl, run prechargeExpired_keeps⟩
  | safetyTimerExpiry => exact ⟨_, rfl, run safetyExpired_keeps⟩
  | triggerTimerExpiry trigger => exact ⟨_, rfl, expiry _ fun h => h.through (mature_changes _ _) (by decide)⟩
  | lidConfirmTimerExpiry => exact ⟨_, rfl, expiry _ fun h => cause_keeps _ h⟩
  | wakeTimerExpiry => exact ⟨_, rfl, expiry _ wakeExpired_keeps⟩
  | gapTimerExpiry => exact ⟨_, rfl, expiry _ fun h => h.through (nextAttempt_changes _) (by decide)⟩
  | uptimeTick =>
    exact ⟨_, rfl, expiry (fun u => some u.nextSecond) fun h => h.through (tickUptime_changes _) (by decide)⟩
  | lengthByteAbandon byte => exact ⟨_, rfl, run fun h => h.through (lengthAbandon_changes _ _) (by decide)⟩
  | rxGapTimeout => exact ⟨_, rfl, expiry _ fun h => h.through (gapExpired_changes _) (by decide)⟩
  | frameReject => exact ⟨_, rfl, run badFrame_keeps⟩
  | unknownKindFrame kind tag payload => exact ⟨_, rfl, run (goodFrame_keeps _ _ _)⟩
  | txFrameDone => exact ⟨_, rfl, whileRunning_lawful frameSent_lawful h⟩
  | commitWriteDone faulty => exact ⟨_, rfl, run fun h => h.through (writeDone_changes _ _) (by decide)⟩
  | commitVerifyDone => exact ⟨_, rfl, run fun h => h.through (verifyDone_changes _) (by decide)⟩
  | rxdByte byte => exact ⟨_, rfl, run (rxByte_keeps _)⟩
  | _ => exact ⟨_, rfl, request _ _ _⟩

theorem step_lawful (h : Lawful L C H s) (e : step s = .next t) : Lawful L C H t := by
  unfold step at e
  split at e
  · cases e
    exact whileRunning_lawful (fun h => Stands.lawful (s := advance 1 _) h) h
  · rename_i c rest _
    obtain ⟨u, hexec, hu⟩ := exec_lawful (s := { s with pending := rest }) c h
    cases hexec.symm.trans e
    exact hu

/-! ### The forced posture (R35, R36) -/

/-- R36: HELD at the forced value while a situation holds, and never HELD or at a forced value while none does. -/
def Pe.ForcedOk (p : Pe) : Prop :=
  (p.situation = .lid → p.posture.state = .held ∧ p.posture.value = .closed) ∧
  (p.situation = .noBase → p.posture.state = .held ∧ p.posture.value = .detached) ∧
  (p.situation = .none → p.posture.state ≠ .held ∧ p.posture.value ≠ .closed ∧ p.posture.value ≠ .detached)

/-- An act on the posture machine that neither enters nor leaves HELD, and moves the value only outside HELD and to one
that is not forced. -/
def FreeMove (l m : Lock Posture) : Prop :=
  (m.state = .held ↔ l.state = .held) ∧
  (m.value = l.value ∨ l.state ≠ .held ∧ m.value ≠ .closed ∧ m.value ≠ .detached)

theorem Pe.ForcedOk.of_freeMove {p q : Pe} (h : p.ForcedOk) (hs : q.situation = p.situation)
    (hm : FreeMove p.posture q.posture) : q.ForcedOk := by
  obtain ⟨hlid, hnoBase, hnone⟩ := h
  obtain ⟨hstate, hvalue⟩ := hm
  refine ⟨fun e => ?_, fun e => ?_, fun e => ?_⟩
  · obtain ⟨held, value⟩ := hlid (hs ▸ e)
    exact ⟨hstate.mpr held, by simpa [held, value] using hvalue⟩
  · obtain ⟨held, value⟩ := hnoBase (hs ▸ e)
    exact ⟨hstate.mpr held, by simpa [held, value] using hvalue⟩
  · obtain ⟨free, closed, detached⟩ := hnone (hs ▸ e)
    refine ⟨fun held => free (hstate.mp held), ?_⟩
    rcases hvalue with same | ⟨-, moved⟩
    · exact same ▸ ⟨closed, detached⟩
    · exact moved

theorem FreeMove.refl (l : Lock Posture) : FreeMove l l := ⟨Iff.rfl, .inl rfl⟩

theorem startOver_freeMove (l : Lock Posture) : FreeMove l (startOver l) := by
  unfold startOver
  split <;> simp_all [FreeMove]

theorem endHalt_freeMove (l : Lock Posture) : FreeMove l (endHalt l) := by
  unfold endHalt
  split <;> simp_all [FreeMove]

theorem recount_freeMove (acquire change : Nat) (l : Lock Posture) : FreeMove l (recount acquire change l) := by
  unfold recount
  split <;> exact FreeMove.refl _

theorem halted_freeMove (p : Pe) : FreeMove p.posture p.halted.posture := by
  unfold Pe.halted
  dsimp only
  split <;> simp_all [FreeMove, noRun]

theorem count_freeMove (need : Nat) {c : Posture} {l : Lock Posture} (hl : l.state ≠ .held) (hclosed : c ≠ .closed)
    (hdetached : c ≠ .detached) : FreeMove l (count need c l) := by
  unfold count
  split <;> simp_all [FreeMove]

theorem takeCandidate_freeMove (acquire change : Nat) {c : Posture} (l : Lock Posture) (hclosed : c ≠ .closed)
    (hdetached : c ≠ .detached) : FreeMove l (takeCandidate acquire change c l) := by
  unfold takeCandidate
  split
  · exact count_freeMove _ (by simp [*]) hclosed hdetached
  · split
    · exact FreeMove.refl _
    · exact count_freeMove _ (by simp [*]) hclosed hdetached
  · exact FreeMove.refl _
  · exact FreeMove.refl _

theorem standOrTent_unforced (margin : Nat) (p : Posture) (b : Vec3) :
    standOrTent margin p b ≠ .closed ∧ standOrTent margin p b ≠ .detached := by
  unfold standOrTent
  repeat' split
  all_goals decide

theorem fromTheta_unforced {u : Tuning} {p c : Posture} {theta : Nat} {b : Vec3}
    (h : fromTheta u p theta b = .candidate c) : c ≠ .closed ∧ c ≠ .detached := by
  unfold fromTheta at h
  split at h
  · cases h; decide
  · split at h
    · split at h
      · cases h; decide
      · cases h
    · split at h
      · cases h; decide
      · cases h; exact standOrTent_unforced _ _ _

theorem hingeStage_unforced {u : Tuning} {p c : Posture} {offset : Int} {n : Notice}
    (h : (hingeStage u p offset n).1 = .candidate c) : c ≠ .closed ∧ c ≠ .detached := by
  unfold hingeStage at h
  split at h
  · split at h
    · exact fromTheta_unforced h
    · cases h
  · cases h

/-- R39 to R42: the classifier's candidates are TABLET, LAPTOP, STAND and TENT. -/
theorem classifyPosture_unforced {u : Tuning} {p c : Posture} {offset : Int} {n : Notice}
    (h : (classifyPosture u p offset n).1 = .candidate c) : c ≠ .closed ∧ c ≠ .detached := by
  unfold classifyPosture at h
  split at h
  · cases h
  · split at h
    · cases h; decide
    · split at h
      iterate 4 cases h
      exact hingeStage_unforced h

theorem noticed_freeMove (u : Tuning) (n : Notice) (p : Pe) :
    FreeMove p.posture ((p.postureSide u n).orientSide u n).posture := by
  have hposture : ((p.postureSide u n).orientSide u n).posture = _ := (Pe.postureSide_locks u n p).1
  rw [hposture]
  cases hv : (classifyPosture u p.posture.value p.offset n).1 with
  | abstain r => exact FreeMove.refl _
  | candidate c =>
    obtain ⟨hclosed, hdetached⟩ := classifyPosture_unforced hv
    exact takeCandidate_freeMove _ _ _ hclosed hdetached

theorem Pe.ForcedOk.force {p : Pe} (h : p.ForcedOk) (new : Situation) : (p.force new).ForcedOk := by
  unfold Pe.force
  split
  · exact h
  · cases new with
    | none => cases p.halt <;> simp [Pe.ForcedOk]
    | lid => simp [Pe.ForcedOk, forcedLock]
    | noBase => simp [Pe.ForcedOk, forcedLock]

theorem Pe.initial_forcedOk : Pe.initial.ForcedOk := by
  simp [Pe.ForcedOk, Pe.initial]

/-- R36 is a law of PE's acts. -/
def forcedLaw : LockLaw where
  holds _ p := p.ForcedOk
  blind hp _ hs h := h.of_freeMove hs (hp ▸ FreeMove.refl _)
  loaded _ := Pe.initial_forcedOk
  restarted _ := Pe.initial_forcedOk
  broken h := h.of_freeMove rfl (startOver_freeMove _)
  recovered h := (h.of_freeMove (q := Pe.broken _) rfl (startOver_freeMove _)).of_freeMove rfl (endHalt_freeMove _)
  halted h := h.of_freeMove rfl (halted_freeMove _)
  forced new h := h.force new
  noticed n h := h.of_freeMove (Pe.postureSide_locks _ n _).2.2 (noticed_freeMove _ n _)
  retuned _ h := h.of_freeMove rfl (recount_freeMove _ _ _)

theorem forcingHolds_iff (s : State) : forcingHolds s ↔ Lawful forcedLaw True False s :=
  ⟨fun h => ⟨fun running => ⟨(h running).2, fun _ => (h running).1⟩, False.elim⟩,
    fun h running => ⟨(h.1 running).2 trivial, (h.1 running).1⟩⟩

/-- R35 follows from the situation that R35 gives and the posture that R36 forces. -/
theorem lawForced_of_forcingHolds (running : s.held = none) (h : forcingHolds s) : lawForced s := by
  obtain ⟨hnow, hlid, hnoBase, hnone⟩ := h running
  unfold lawForced
  unfold situationNow at hnow
  split
  · rw [if_pos ‹_›] at hnow
    exact (hlid hnow).2
  · rw [if_neg ‹_›] at hnow
    split at hnow
    · rename_i hinged
      simp [hinged, (hnone hnow).2.2]
    · rename_i hinged
      simp [hinged, (hnoBase hnow).2]

/-! ### The run counts (R47) -/

theorem countInForce_pos {acquire change : Nat} (ha : 1 ≤ acquire) (hc : 1 ≤ change) (st : LockState) :
    0 < countInForce acquire change st := by
  cases st <;> assumption

section

variable {α : Type} {acquire change : Nat} {l : Lock α}

theorem lockOk_of_noRun (ha : 1 ≤ acquire) (hc : 1 ≤ change) (h : l.run = 0) : lockOk acquire change l :=
  ⟨h ▸ countInForce_pos ha hc _, fun _ => h⟩

theorem startOver_lockOk (ha : 1 ≤ acquire) (hc : 1 ≤ change) (h : lockOk acquire change l) :
    lockOk acquire change (startOver l) := by
  unfold startOver
  split
  · exact lockOk_of_noRun ha hc rfl
  · exact lockOk_of_noRun ha hc rfl
  · exact h
  · exact h

theorem endHalt_lockOk (ha : 1 ≤ acquire) (hc : 1 ≤ change) (h : lockOk acquire change l) :
    lockOk acquire change (endHalt l) := by
  unfold endHalt
  split
  · exact lockOk_of_noRun ha hc rfl
  · exact h

/-- R58: a run that the new count no longer allows is cleared. -/
theorem recount_lockOk (ha : 1 ≤ acquire) (hc : 1 ≤ change) (h : l.pending = none → l.run = 0) :
    lockOk acquire change (recount acquire change l) := by
  unfold recount
  split
  · exact lockOk_of_noRun ha hc rfl
  · exact ⟨by omega, h⟩

variable [DecidableEq α]

/-- R45, R46: a run that reaches the count locks the machine and starts again at 0. -/
theorem count_lockOk (ha : 1 ≤ acquire) (hc : 1 ≤ change) (c : α) (l : Lock α) :
    lockOk acquire change (count (countInForce acquire change l.state) c l) := by
  unfold count
  split
  · exact lockOk_of_noRun ha hc rfl
  · exact ⟨Nat.lt_of_not_le ‹_›, nofun⟩

theorem takeVerdict_lockOk (ha : 1 ≤ acquire) (hc : 1 ≤ change) (v : Verdict α) (h : lockOk acquire change l) :
    lockOk acquire change (takeVerdict acquire change v l) := by
  cases v with
  | abstain r => exact h
  | candidate c =>
    have counted := count_lockOk ha hc c l
    unfold takeVerdict takeCandidate
    dsimp only
    split
    · rename_i acquiring; rwa [acquiring] at counted
    · rename_i locked
      split
      · exact lockOk_of_noRun ha hc rfl
      · rwa [locked] at counted
    · exact h
    · exact h

end

/-- The tuning record is in range, and the runs of both lock machines are below their counts. -/
def RunsOk (u : Tuning) (p : Pe) : Prop :=
  tuningInRange u ∧ lockOk u.postureAcquire u.postureChange p.posture ∧ lockOk u.orientAcquire u.orientChange p.orient

theorem counts_pos {u : Tuning} (h : tuningInRange u) :
    1 ≤ u.postureAcquire ∧ 1 ≤ u.postureChange ∧ 1 ≤ u.orientAcquire ∧ 1 ≤ u.orientChange := by
  obtain ⟨-, -, -, -, -, ⟨hpa, -⟩, ⟨hpc, -⟩, ⟨hoa, -⟩, ⟨hoc, -⟩, -⟩ := h
  exact ⟨hpa, hpc, hoa, hoc⟩

/-- Acts on the two machines that each keep R47 under counts of at least 1 keep it together. -/
theorem RunsOk.map {u : Tuning} {p q : Pe} (h : RunsOk u p)
    (hp : 1 ≤ u.postureAcquire → 1 ≤ u.postureChange → lockOk u.postureAcquire u.postureChange p.posture →
      lockOk u.postureAcquire u.postureChange q.posture)
    (ho : 1 ≤ u.orientAcquire → 1 ≤ u.orientChange → lockOk u.orientAcquire u.orientChange p.orient →
      lockOk u.orientAcquire u.orientChange q.orient) : RunsOk u q := by
  obtain ⟨hrange, hposture, horient⟩ := h
  obtain ⟨hpa, hpc, hoa, hoc⟩ := counts_pos hrange
  exact ⟨hrange, hp hpa hpc hposture, ho hoa hoc horient⟩

theorem Pe.initial_runsOk {u : Tuning} (h : tuningInRange u) : RunsOk u Pe.initial := by
  obtain ⟨hpa, hpc, hoa, hoc⟩ := counts_pos h
  exact ⟨h, lockOk_of_noRun hpa hpc rfl, lockOk_of_noRun hoa hoc rfl⟩

theorem RunsOk.broken {u : Tuning} {p : Pe} (h : RunsOk u p) : RunsOk u p.broken :=
  h.map startOver_lockOk startOver_lockOk

theorem RunsOk.halted {u : Tuning} {p : Pe} (h : RunsOk u p) : RunsOk u p.halted := by
  refine h.map (fun ha hc _ => lockOk_of_noRun ha hc ?_) fun ha hc _ => lockOk_of_noRun ha hc rfl
  unfold Pe.halted
  dsimp only
  split <;> rfl

theorem RunsOk.force {u : Tuning} {p : Pe} (h : RunsOk u p) (new : Situation) : RunsOk u (p.force new) := by
  unfold Pe.force
  split
  · exact h
  · cases new with
    | _ => exact h.map (fun ha hc _ => lockOk_of_noRun ha hc rfl) fun _ _ h => h

theorem RunsOk.noticed {u : Tuning} {p : Pe} (n : Notice) (h : RunsOk u p) :
    RunsOk u ((p.postureSide u n).orientSide u n) := by
  obtain ⟨hposture, horient, -⟩ := Pe.postureSide_locks u n p
  refine h.map (fun ha hc hl => ?_) fun ha hc hl => ?_
  · have hp : ((p.postureSide u n).orientSide u n).posture = _ := hposture
    exact hp ▸ takeVerdict_lockOk ha hc _ hl
  · exact takeVerdict_lockOk ha hc _ (horient ▸ hl)

theorem RunsOk.retuned {u v : Tuning} {p : Pe} (hv : tuningInRange v) (h : RunsOk u p) : RunsOk v (p.retuned v) := by
  obtain ⟨-, hposture, horient⟩ := h
  obtain ⟨hpa, hpc, hoa, hoc⟩ := counts_pos hv
  exact ⟨hv, recount_lockOk hpa hpc hposture.2, recount_lockOk hoa hoc horient.2⟩

/-- R47 is a law of PE's acts. -/
def runsLaw : LockLaw where
  holds := RunsOk
  blind hp ho _ h := h.map (fun _ _ hl => hp ▸ hl) fun _ _ hl => ho ▸ hl
  loaded h := Pe.initial_runsOk h
  restarted h := Pe.initial_runsOk h.1
  broken h := h.broken
  recovered h := h.broken.map endHalt_lockOk endHalt_lockOk
  halted h := h.halted
  forced new h := h.force new
  noticed n h := h.noticed n
  retuned hu h := h.retuned hu

theorem lawRuns_iff (s : State) :
    tuningInRange s.settings.tuning ∧ lawRuns s ↔ Lawful runsLaw False True s :=
  ⟨fun h => ⟨fun _ => .stale h, fun _ => h⟩, fun h => h.2 trivial⟩

/-- Settles O28: R36 and R47 are laws of PE's acts, and every report of LIDH and of BM's state brings the situation up
to date. -/
theorem stepKeepsPostureLaws : Obligations.StepKeepsPostureLaws := by
  refine ⟨fun s t h e => ?_, fun s => lawForced_of_forcingHolds, fun s t hrange hruns e => ?_⟩
  · exact (forcingHolds_iff t).mpr (step_lawful ((forcingHolds_iff s).mp h) e)
  · exact (lawRuns_iff t).mpr (step_lawful ((lawRuns_iff s).mp ⟨hrange, hruns⟩) e)

end Sys2Proof.Machine

/-!
The five requests that report a record of PE, SFE, BM, SM or PDC (R16, R56, R75, R98, R110, R140).
-/
namespace Sys2Proof.Machine

/-- A request whose owner only answers changes nothing but its slot and the transmitter. -/
theorem exec_request_answered {k : ReqKind} {tag : Byte} {p : List Byte} {s : State} {r : Reply} (h : Ready k s)
    (hp : p.length = payloadLength k)
    (hs : serve (freePlace s.lc.slots) k p (inSlot k tag p .taken s) =
      answer (freePlace s.lc.slots) r (inSlot k tag p .taken s)) :
    exec (requestCommand k tag p) s = .next (replied k tag p r s) :=
  exec_request_replied (u := id) h hp hs rfl

/-- Settles O17: each of the five owners answers with its block's record over the state as it stands. -/
theorem sensingBaseAndPenReplies : Obligations.SensingBaseAndPenReplies := fun _ _ =>
  ⟨fun h => exec_request_answered (k := .getPosture) h rfl rfl,
    fun h => exec_request_answered (k := .getVectors) h rfl rfl,
    fun h => exec_request_answered (k := .listBases) h rfl rfl,
    fun h => exec_request_answered (k := .getSupply) h rfl rfl,
    fun h => exec_request_answered (k := .getPen) h rfl rfl⟩

end Sys2Proof.Machine

/-!
SET_ROTATION_LOCK (R52, R53). The request stands TAKEN in a place of its own (`TakenIn`) while PE's events and SPU's
reach the transmitter, which starts READY replies only; so the answer, when it comes, is the reply to this request.
-/
namespace Sys2Proof.Machine

open Sys2Proof.Claims

variable {place : Nat} {kind : ReqKind} {tag : Byte} {s t : State}

/-! ### A request that its owner has taken -/

/-- The slot in this place, and no other, holds a request of this kind and tag, in this phase. -/
def InPlace (place : Nat) (kind : ReqKind) (tag : Byte) (phase : SlotPhase) (s : State) : Prop :=
  (∃ sl ∈ s.lc.slots, sl.place = place) ∧
  ∀ sl ∈ s.lc.slots, sl.place = place → sl.kind = kind ∧ sl.tag = tag ∧ sl.phase = phase

/-- The request in this place has been handed and not answered yet. -/
abbrev TakenIn (place : Nat) (kind : ReqKind) (tag : Byte) (s : State) : Prop := InPlace place kind tag .taken s

theorem TakenIn.of_slots (h : TakenIn place kind tag s) (e : t.lc.slots = s.lc.slots) : TakenIn place kind tag t := by
  rwa [TakenIn, InPlace, e]

/-- The transmitter's choice leaves the slots as they are, or starts a READY reply of one of them (R183). -/
theorem Lc.choose_cases (host : HostView) (lc : Lc) :
    (lc.choose host).slots = lc.slots ∨
    ∃ sl r n, sl ∈ lc.slots ∧ sl.phase = .ready r n ∧ lc.choose host = lc.startReply sl r := by
  have earliest : ∀ {sl r n}, earliestReply lc.slots = some (sl, r, n) → sl ∈ lc.slots ∧ sl.phase = .ready r n :=
    fun e => earliestReply_mem _ _ _ _ e
  unfold Lc.choose
  split
  · rename_i e _
    obtain ⟨hmem, hready⟩ := earliest e
    split
    · exact .inr ⟨_, _, _, hmem, hready, rfl⟩
    · exact .inl rfl
  · rename_i e _
    obtain ⟨hmem, hready⟩ := earliest e
    exact .inr ⟨_, _, _, hmem, hready, rfl⟩
  · exact .inl rfl
  · unfold Lc.startEvent
    split
    · exact .inl rfl
    · split <;> exact .inl rfl

theorem kick_takenIn (h : TakenIn place kind tag s) : TakenIn place kind tag (kick s) := by
  unfold kick
  split
  · exact h
  · rcases Lc.choose_cases s.spu.host s.lc with e | ⟨sl, r, n, hmem, hready, e⟩
    · exact h.of_slots e
    · obtain ⟨⟨own, hown, hplace⟩, hall⟩ := h
      have other : sl.place ≠ place := fun same => by
        obtain ⟨-, -, htaken⟩ := hall sl hmem same
        cases hready.symm.trans htaken
      simp only [InPlace, e, Lc.startReply_slots, setPhase, List.mem_map]
      refine ⟨⟨_, ⟨own, hown, rfl⟩, ?_⟩, ?_⟩
      · rw [if_neg fun same => other (same.symm.trans hplace)]
        exact hplace
      · rintro _ ⟨x, hx, rfl⟩ hxplace
        split at hxplace
        · rename_i same
          exact absurd (same.symm.trans hxplace) other
        · rename_i differs
          rw [if_neg differs]
          exact hall x hx hxplace

theorem Lc.enqueue_slots (e : Event) (lc : Lc) : (lc.enqueue e).slots = lc.slots := by
  unfold Lc.enqueue
  repeat' split
  all_goals rfl

theorem offer_takenIn (e : Event) (h : TakenIn place kind tag s) : TakenIn place kind tag (offer e s) := by
  unfold offer
  split
  · exact kick_takenIn (h.of_slots (Lc.enqueue_slots e s.lc))
  · exact h

theorem mature_takenIn (tr : Trigger) (h : TakenIn place kind tag s) : TakenIn place kind tag (mature tr s) := by
  unfold mature
  dsimp only
  split
  · exact offer_takenIn _ h
  · exact h

theorem triggerBegins_takenIn (tr : Trigger) (h : TakenIn place kind tag s) :
    TakenIn place kind tag (triggerBegins tr s) := by
  unfold triggerBegins
  dsimp only
  split
  · exact mature_takenIn _ h
  · exact h

theorem triggerEnds_takenIn (tr : Trigger) (h : TakenIn place kind tag s) :
    TakenIn place kind tag (triggerEnds tr s) := by
  unfold triggerEnds
  dsimp only
  split
  · split
    · exact offer_takenIn _ h
    · exact h
  · exact h

theorem evalTrigger_takenIn (tr : Trigger) (h : TakenIn place kind tag s) :
    TakenIn place kind tag (evalTrigger tr s) := by
  unfold evalTrigger
  split
  · exact h
  · split
    · exact triggerBegins_takenIn _ h
    · exact triggerEnds_takenIn _ h

theorem spuView_takenIn (h : TakenIn place kind tag s) : TakenIn place kind tag (spuView s) := by
  have both : ∀ a b {u}, TakenIn place kind tag u → TakenIn place kind tag (evalTrigger a (evalTrigger b u)) :=
    fun a b _ h => evalTrigger_takenIn a (evalTrigger_takenIn b h)
  unfold spuView
  dsimp only
  split
  · exact eitherOrder_holds (both .faceDown .lid h) (both .lid .faceDown h)
  · exact both .faceDown .lid h

theorem emitPosture_takenIn (old p : Pe) (h : TakenIn place kind tag s) :
    TakenIn place kind tag (emitPosture old p s) := by
  have posture : TakenIn place kind tag
      (if postureNews old p = true then offer (.postureChanged (postureRecord p)) s else s) := by
    split
    · exact offer_takenIn _ h
    · exact h
  unfold emitPosture
  dsimp only
  split
  · exact offer_takenIn _ posture
  · exact posture

theorem peStep_takenIn {report : State → State} (p : Pe)
    (hr : ∀ u, TakenIn place kind tag u → TakenIn place kind tag (report u)) (h : TakenIn place kind tag s) :
    TakenIn place kind tag (peStep report p s) := by
  unfold peStep
  dsimp only
  split
  · exact raceLc_keeps (fun _ h => h) (fun _ => emitPosture_takenIn _ _) hr h
  · exact hr _ h

theorem inSlot_takenIn (k : ReqKind) (tag : Byte) (p : List Byte) (hl : s.lc.slots.length < 4) :
    TakenIn (freePlace s.lc.slots) k tag (inSlot k tag p .taken s) := by
  obtain ⟨-, hfree⟩ := freePlace_free s.lc.slots hl
  refine ⟨⟨_, List.mem_append_right _ (List.mem_singleton_self _), rfl⟩, fun sl hmem hplace => ?_⟩
  rcases List.mem_append.mp hmem with hold | hnew
  · exact absurd hplace (hfree sl hold)
  · cases List.mem_singleton.mp hnew
    exact ⟨rfl, rfl, rfl⟩

/-- The transmitter leaves a READY reply READY, or starts it (R183). -/
theorem kick_answered {r : Reply} {n : Nat} (h : InPlace place kind tag (.ready r n) s) :
    Answered kind tag r (kick s) := by
  obtain ⟨⟨own, hown, hplace⟩, hall⟩ := h
  obtain ⟨hkind, htag, hready⟩ := hall own hown hplace
  unfold kick
  split
  · exact ⟨own, hown, hkind, htag, .inl ⟨n, hready⟩⟩
  · rcases Lc.choose_cases s.spu.host s.lc with e | ⟨sl, rsl, m, hmem, hslready, e⟩
    · exact ⟨own, e ▸ hown, hkind, htag, .inl ⟨n, hready⟩⟩
    · simp only [Answered, e, Lc.startReply_slots, Lc.startReply_tx, setPhase]
      refine ⟨_, List.mem_map_of_mem hown, ?_⟩
      by_cases same : sl.place = place
      · obtain ⟨slkind, sltag, hphase⟩ := hall sl hmem same
        cases hslready.symm.trans hphase
        simp [same, hplace, hkind, htag, slkind, sltag]
      · have differs : own.place ≠ sl.place := fun eq => same (eq.symm.trans hplace)
        simp [differs, hkind, htag, hready]

/-- The answer stands READY in the slot of its request, or the transmitter starts it at once (R181, R183). -/
theorem answer_answered (r : Reply) (h : TakenIn place kind tag s) : Answered kind tag r (answer place r s) := by
  obtain ⟨⟨own, hown, hplace⟩, hall⟩ := h
  refine kick_answered (place := place) (n := s.lc.moments) ⟨⟨_, List.mem_map_of_mem hown, ?_⟩, ?_⟩
  · simp [hplace]
  · simp only [List.mem_map, List.mem_singleton]
    rintro _ ⟨x, hx, rfl⟩ hxplace
    have same : x.place = place := by split at hxplace <;> exact hxplace
    obtain ⟨hkind, htag, -⟩ := hall x hx same
    simp [same, hkind, htag]

/-! ### PE's record after a step of PE -/

/-- The parts of the state that make up PE's record. -/
def peParts : List Part := [.locks, .forcing, .halt, .freshness, .abstain, .reported, .rotation, .hinge, .hingeBase]

theorem Changes.pe_eq {m : List Part} (c : Changes m s t) (hm : ∀ p ∈ peParts, p ∉ m) : t.pe = s.pe := by
  have same : ∀ p ∈ peParts, p.Same s t := fun p hp => c.same p (hm p hp)
  have locks := same .locks (by decide)
  have forcing := same .forcing (by decide)
  have halt := same .halt (by decide)
  have freshness := same .freshness (by decide)
  have abstain := same .abstain (by decide)
  have reported := same .reported (by decide)
  have rotation := same .rotation (by decide)
  have hinge := same .hinge (by decide)
  have hingeBase := same .hingeBase (by decide)
  simp only [Part.Same, Prod.mk.injEq] at *
  cases hs : s.pe
  cases ht : t.pe
  simp_all

theorem spuView_pe (s : State) : (spuView s).pe = s.pe := (spuView_changes s).pe_eq (by decide)

/-- R52: a step of PE leaves the settled record, whatever is told of it. -/
theorem peStep_pe {report : State → State} (hr : ∀ u, (report u).pe = u.pe) (p : Pe) (s : State) :
    (peStep report p s).pe = settled s.pe p := by
  unfold peStep
  dsimp only
  split
  · exact raceLc_keeps (P := fun u => u.pe = settled s.pe p) (fun _ h => h)
      (fun u h => ((emitPosture_changes _ _ u).pe_eq (by decide)).trans h) (fun u h => (hr u).trans h) rfl
  · exact hr _

/-! ### SET_ROTATION_LOCK -/

theorem onOffOf_mark {mark : Byte} (h : mark.toNat ≤ 1) : onOffOf (u8 [mark] 0) = some (decide (mark = 1#8)) := by
  have zero_or_one : mark = 0#8 ∨ mark = 1#8 := by bv_omega
  rcases zero_or_one with rfl | rfl <;> rfl

theorem onOffOf_other {mark : Byte} (h : 1 < mark.toNat) : onOffOf (u8 [mark] 0) = none := by
  have none_above : ∀ n, 1 < n → onOffOf n = none
    | _ + 2, _ => rfl
  exact none_above _ h

/-- R53: ON captures the reported orientation when the lock was OFF; ON while ON, and OFF, leave the lock value. -/
theorem Pe.lockRotation_eq (on : Bool) (p : Pe) :
    p.lockRotation on =
      { p with
        rotationLock := on
        lockValue := if on = true ∧ p.rotationLock = false then p.reported else p.lockValue } := by
  cases on with
  | false => rfl
  | true =>
    obtain ⟨_, _, _, _, _, _, _, _, _, lock, _, _, _, _, _, _⟩ := p
    cases lock <;> rfl

/-- R52: while the posture's value stands, settling computes the reported orientation again and nothing else. -/
theorem settled_of_value {old p : Pe} (h : p.posture.value = old.posture.value) :
    settled old p = { p with reported := shown p } := by
  unfold settled
  rw [if_neg fun closes => closes.2 (h ▸ closes.1)]
  rfl

/-- R52, R53: PE's record after the lock is set ON or OFF. -/
theorem peStep_lockRotation_pe (on : Bool) (s : State) :
    (peStep spuView (s.pe.lockRotation on) s).pe =
      { s.pe.lockRotation on with reported := shown (s.pe.lockRotation on) } := by
  have value : (s.pe.lockRotation on).posture.value = s.pe.posture.value := by rw [Pe.lockRotation_eq]
  rw [peStep_pe spuView_pe, settled_of_value value]

/-- R53: a known mark sets the lock, and the reply carries the record that comes of it. -/
theorem serveSetRotationLock_known {payload : List Byte} {on : Bool} (h : onOffOf (u8 payload 0) = some on)
    (place : Nat) (s : State) :
    serveSetRotationLock place payload s =
      answer place (rotationReply (peStep spuView (s.pe.lockRotation on) s).pe)
        (peStep spuView (s.pe.lockRotation on) s) := by
  simp only [serveSetRotationLock, h]

theorem serveSetRotationLock_unknown {payload : List Byte} (h : onOffOf (u8 payload 0) = none) (place : Nat)
    (s : State) :
    serveSetRotationLock place payload s = answer place (Reply.code .badValue) s := by
  simp only [serveSetRotationLock, h]

theorem inSlot_changes (k : ReqKind) (tag : Byte) (p : List Byte) (phase : SlotPhase) (s : State) :
    Changes [.assembler, .link] s (inSlot k tag p phase s) := by
  refine ⟨fun q hq => ?_⟩
  cases q with
  | assembler => exact absurd (by decide) hq
  | link => exact absurd (by decide) hq
  | _ => rfl

/-- Settles O26: the mark decides the lock (`Pe.lockRotation_eq`), PE settles the record (R52), and the request still
stands TAKEN when its answer comes. -/
theorem rotationLockRequest : Obligations.RotationLockRequest := by
  intro tag mark s h
  have ⟨_, _, hfree, _, _⟩ := h
  refine ⟨fun hmark => ?_, fun hmark => ?_⟩
  · have hserve := serveSetRotationLock_known (onOffOf_mark hmark) (freePlace s.lc.slots)
      (inSlot .setRotationLock tag [mark] .taken s)
    have hpe := peStep_lockRotation_pe (decide (mark = 1#8)) (inSlot .setRotationLock tag [mark] .taken s)
    rw [hpe] at hserve
    rw [inSlot_pe, Pe.lockRotation_eq] at hserve hpe
    refine ⟨_, exec_request_ready h rfl, ?_, ?_, ?_⟩
    · rw [serve, hserve, answer_pe]
      exact hpe
    · rw [serve, hserve]
      exact answer_answered _ (peStep_takenIn _ (fun _ => spuView_takenIn) (inSlot_takenIn _ _ _ hfree))
    · exact ((inSlot_changes _ _ _ _ _).mono (by decide)).step (serveSetRotationLock_changes _ _ _) (by decide)
  · exact exec_request_answered h rfl (serveSetRotationLock_unknown (onOffOf_other hmark) _ _)

end Sys2Proof.Machine

/-!
The form of the paired-base table (R74, 4.6).

BM changes the table by three list operations: it drops an entry, puts one at rank 1, or writes an offset. Each keeps the
form (`TableForm`), and a reset loads a table that has it (R194). Every other operation leaves the table as it is, which
its `<operation>_changes` lemma says.
-/
namespace Sys2Proof.Machine

/-! ### The form of a table -/

/-- R74, 4.6: at most four entries of pairwise different serials, each offset in −720..720. -/
structure TableForm (table : List BaseEntry) : Prop where
  short : table.length ≤ 4
  serials : (table.map (·.serial)).Nodup
  offsets : ∀ e ∈ table, -720 ≤ e.offset ∧ e.offset ≤ 720

theorem tableForm_iff (s : State) :
    TableForm s.settings.table ↔ lawTable s ∧ ∀ e ∈ s.settings.table, -720 ≤ e.offset ∧ e.offset ≤ 720 :=
  ⟨fun h => ⟨⟨h.short, h.serials⟩, h.offsets⟩, fun ⟨⟨short, serials⟩, offsets⟩ => ⟨short, serials, offsets⟩⟩

theorem TableForm.nil : TableForm [] := ⟨Nat.zero_le _, List.nodup_nil, fun _ h => nomatch h⟩

theorem TableForm.sublist {t u : List BaseEntry} (h : TableForm u) (sub : t.Sublist u) : TableForm t :=
  ⟨sub.length_le.trans h.short, (sub.map _).nodup h.serials, fun e he => h.offsets e (sub.subset he)⟩

theorem TableForm.dropEntry {t : List BaseEntry} (h : TableForm t) (serial : Serial) : TableForm (dropEntry serial t) :=
  h.sublist List.filter_sublist

theorem dropEntry_serial {t : List BaseEntry} {serial : Serial} {e : BaseEntry} (he : e ∈ dropEntry serial t) :
    e.serial ≠ serial := by
  simpa using (List.mem_filter.mp he).2

/-- R67, R68: an entry at rank 1 with at most three others, none of its serial. -/
theorem TableForm.rankFirst {t : List BaseEntry} {e : BaseEntry} (h : TableForm t)
    (he : -720 ≤ e.offset ∧ e.offset ≤ 720) : TableForm (rankFirst e t) := by
  have rest : TableForm ((Machine.dropEntry e.serial t).take 3) := (h.dropEntry _).sublist (List.take_sublist _ _)
  refine ⟨by simp [Machine.rankFirst], List.nodup_cons.mpr ⟨fun hmem => ?_, rest.serials⟩, ?_⟩
  · obtain ⟨x, hx, hserial⟩ := List.mem_map.mp hmem
    exact dropEntry_serial ((List.take_sublist _ _).subset hx) hserial
  · exact List.forall_mem_cons.mpr ⟨he, rest.offsets⟩

theorem writeOffset_serials (serial : Serial) (offset : Int) (t : List BaseEntry) :
    (writeOffset serial offset t).map (·.serial) = t.map (·.serial) := by
  rw [writeOffset, List.map_map]
  refine List.map_congr_left fun e _ => ?_
  simp only [Function.comp_apply]
  split <;> rfl

/-- R77: a clamped offset written into an entry. -/
theorem TableForm.writeOffset {t : List BaseEntry} {offset : Int} (h : TableForm t) (serial : Serial)
    (ho : -720 ≤ offset ∧ offset ≤ 720) : TableForm (writeOffset serial offset t) := by
  refine ⟨by simpa [Machine.writeOffset] using h.short, writeOffset_serials serial offset t ▸ h.serials, ?_⟩
  simp only [Machine.writeOffset, List.mem_map]
  rintro _ ⟨e, he, rfl⟩
  split
  · exact ho
  · exact h.offsets e he

theorem clampInt_range (x : Int) : -720 ≤ clampInt (-720) 720 x ∧ clampInt (-720) 720 x ≤ 720 := by
  unfold clampInt
  omega

/-! ### The table that a reset loads (R194) -/

/-- The ranks of a stored table's entries tell them apart, and so do their serials. -/
theorem entryOfRank_some {es : List RawEntry} {k : Nat} {e : BaseEntry} (h : entryOfRank es k = some e) :
    ∃ r ∈ es, r.rank = k ∧ r.serial = e.serial ∧ r.offset = e.offset := by
  obtain ⟨r, hr, rfl⟩ := Option.map_eq_some_iff.mp h
  exact ⟨r, List.mem_of_find?_eq_some hr, by simpa using List.find?_some hr, rfl, rfl⟩

theorem readTable_form {es : List RawEntry} (h : tableOk es = true) : TableForm (readTable es) := by
  simp only [tableOk, Bool.and_eq_true, decide_eq_true_eq, List.all_eq_true] at h
  obtain ⟨⟨⟨short, serials⟩, -⟩, offsets⟩ := h
  refine ⟨?_, ?_, fun e he => ?_⟩
  · exact (List.length_filterMap_le _ _).trans (by simpa using short)
  · rw [readTable, List.map_filterMap]
    refine List.Nodup.filterMap (fun j k serial hj hk => ?_) List.nodup_range
    obtain ⟨a, ha, rfl⟩ := Option.map_eq_some_iff.mp hj
    obtain ⟨b, hb, hserial⟩ := Option.map_eq_some_iff.mp hk
    obtain ⟨ra, hra, rankA, serialA, -⟩ := entryOfRank_some ha
    obtain ⟨rb, hrb, rankB, serialB, -⟩ := entryOfRank_some hb
    have same : ra = rb := List.inj_on_of_nodup_map serials hra hrb (serialA.trans (hserial.symm.trans serialB.symm))
    subst same
    omega
  · obtain ⟨k, -, hk⟩ := List.mem_filterMap.mp he
    obtain ⟨r, hr, -, -, hoffset⟩ := entryOfRank_some hk
    simpa [offsetOk, hoffset] using offsets r hr

theorem loadImage_table_form (i : Image) : TableForm (loadImage i).1.table := by
  unfold loadImage
  split
  · split
    · rename_i u hread
      unfold readSettings at hread
      split at hread
      · split at hread
        · rename_i hchecks
          obtain ⟨-, -, -, -, hok⟩ := hchecks
          cases hread
          exact readTable_form hok
        · cases hread
      · cases hread
    · exact .nil
  · exact .nil

/-! ### Operations that change the table, or leave it -/

variable {s t : State}

/-- The table of the state has its form. -/
def HasForm (s : State) : Prop := TableForm s.settings.table

theorem HasForm.through {m : List Part} (h : HasForm s) (c : Changes m s t) (hm : .table ∉ m) : HasForm t := by
  have same : t.settings.table = s.settings.table := c.same .table hm
  rwa [HasForm, same]

theorem HasForm.of_eq (h : HasForm s) (e : t.settings = s.settings) : HasForm t := by
  rwa [HasForm, e]

/-- R74: the table becomes the one named, whether or not that requests a commit. -/
theorem setTable_table (table : List BaseEntry) (s : State) : (setTable table s).settings.table = table := by
  unfold setTable
  split
  · exact Eq.symm ‹_›
  · exact (requestCommit_changes _).same .table (by decide)

theorem setTable_form {table : List BaseEntry} (h : TableForm table) (s : State) : HasForm (setTable table s) := by
  rwa [HasForm, setTable_table]

theorem createEntry_form (i : Identity) (h : HasForm s) : HasForm (createEntry i s) :=
  setTable_form (TableForm.rankFirst h (by decide : (-720 : Int) ≤ 0 ∧ (0 : Int) ≤ 720)) _

theorem findEntry_mem {serial : Serial} {table : List BaseEntry} {e : BaseEntry} (h : findEntry serial table = some e) :
    e ∈ table := List.mem_of_find?_eq_some h

theorem identityCheck_form (i : Identity) (h : HasForm s) : HasForm (identityCheck i s) := by
  unfold identityCheck
  split
  · rename_i e found
    have range : -720 ≤ e.offset ∧ e.offset ≤ 720 := h.offsets e (findEntry_mem found)
    have first : TableForm (rankFirst { e with model := i.model } s.settings.table) := TableForm.rankFirst h range
    exact (setTable_form first s).through (toAttached_changes _ _) (by decide)
  · split
    · exact (createEntry_form i h).through (toAttached_changes _ _) (by decide)
    · exact h.through (toRefused_changes _ _) (by decide)

theorem takeIdent_form (i : Identity) (h : HasForm s) : HasForm (takeIdent i s) := by
  have filed : ∀ amount u, HasForm u → HasForm (fileBase amount u) := fun amount u hu =>
    hu.through (fileBase_changes amount u) (by decide)
  unfold takeIdent
  dsimp only
  split
  · have queried := filed (drawClaim i)
      { s with bm := { s.bm with queryOut := false, query := none, identity := some i } } (h.of_eq rfl)
    split
    · exact identityCheck_form i queried
    · exact queried.through (toPowering_changes _ _) (by decide)
  · exact h

theorem putOffset_form (e : BaseEntry) {offset : Int} (ho : -720 ≤ offset ∧ offset ≤ 720) (h : HasForm s) :
    HasForm (putOffset e offset s) := by
  have written : HasForm (setTable (writeOffset e.serial offset s.settings.table) s) := setTable_form (TableForm.writeOffset h _ ho) s
  unfold putOffset
  dsimp only
  split
  · exact h
  · split
    · exact written.through (activeOffset_changes _ _) (by decide)
    · exact written

theorem forgetActive_form (e : BaseEntry) (h : HasForm s) : HasForm (forgetActive e s) := by
  have anew : ∀ model, HasForm (setTable (rankFirst ⟨e.serial, model, 0⟩ s.settings.table) s) := fun model =>
    setTable_form (TableForm.rankFirst h (by decide : (-720 : Int) ≤ 0 ∧ (0 : Int) ≤ 720)) s
  unfold forgetActive
  dsimp only
  split
  · exact anew _
  · exact (anew _).through (activeOffset_changes _ _) (by decide)

/-- An answer and an act of BM, in either order. -/
theorem raceLc_form {act : State → State} (place : Nat) (r : Reply) (ha : ∀ {u}, HasForm u → HasForm (act u))
    (h : HasForm s) : HasForm (raceLc (answer place r) act s) :=
  raceLc_keeps (P := HasForm) (fun _ hu => hu) (fun u hu => hu.through (answer_changes place r u) (by decide))
    (fun _ => ha) h

theorem serveForgetBase_form (place : Nat) (payload : List Byte) (h : HasForm s) :
    HasForm (serveForgetBase place payload s) := by
  unfold serveForgetBase
  split
  · exact h.through (answer_changes _ _ _) (by decide)
  · refine raceLc_form _ _ (fun hu => ?_) h
    split
    · exact forgetActive_form _ hu
    · exact setTable_form (TableForm.dropEntry hu _) _

theorem serveSetBaseOffset_form (place : Nat) (payload : List Byte) (h : HasForm s) :
    HasForm (serveSetBaseOffset place payload s) := by
  unfold serveSetBaseOffset
  split
  · exact h.through (answer_changes _ _ _) (by decide)
  · exact raceLc_form _ _ (putOffset_form _ (clampInt_range _)) h

theorem serveCalibrateHinge_form (place : Nat) (payload : List Byte) (h : HasForm s) :
    HasForm (serveCalibrateHinge place payload s) := by
  unfold serveCalibrateHinge
  split
  · exact h.through (answer_changes _ _ _) (by decide)
  · exact raceLc_form _ _ (putOffset_form _ (clampInt_range _)) h

theorem serveAcceptBase_form (place : Nat) (h : HasForm s) : HasForm (serveAcceptBase place s) := by
  unfold serveAcceptBase
  split
  · exact ((createEntry_form _ h).through (answer_changes _ _ _) (by decide)).through (toPowering_changes _ _) (by decide)
  · exact h.through (answer_changes _ _ _) (by decide)

/-! ### Requests and commands -/

/-- Four requests of BM change the table; an owner's service of any other leaves it. -/
theorem serve_form (place : Nat) (kind : ReqKind) (payload : List Byte) (h : HasForm s) :
    HasForm (serve place kind payload s) := by
  cases kind with
  | calibrateHinge => exact serveCalibrateHinge_form _ _ h
  | forgetBase => exact serveForgetBase_form _ _ h
  | setBaseOffset => exact serveSetBaseOffset_form _ _ h
  | acceptBase => exact serveAcceptBase_form _ h
  | identify => exact h.through (serveIdentify_changes _ _) (by decide)
  | subscribe => exact h.through (serveSubscribe_changes _ _ _) (by decide)
  | unsubscribe => exact h.through (serveUnsubscribe_changes _ _ _) (by decide)
  | resetPart => exact h.through (serveResetPart_changes _ _) (by decide)
  | getPosture => exact h.through (serveGetPosture_changes _ _) (by decide)
  | getVectors => exact h.through (serveGetVectors_changes _ _) (by decide)
  | setRotationLock => exact h.through (serveSetRotationLock_changes _ _ _) (by decide)
  | setTuning => exact h.through (serveSetTuning_changes _ _ _) (by decide)
  | listBases => exact h.through (serveListBases_changes _ _) (by decide)
  | setBasePolicy => exact h.through (serveSetBasePolicy_changes _ _ _) (by decide)
  | requestDetach => exact h.through (serveRequestDetach_changes _ _) (by decide)
  | detachConsent => exact h.through (serveDetachConsent_changes _ _ _) (by decide)
  | setDetachPolicy => exact h.through (serveSetDetachPolicy_changes _ _ _) (by decide)
  | getSupply => exact h.through (serveGetSupply_changes _ _) (by decide)
  | getPen => exact h.through (serveGetPen_changes _ _) (by decide)
  | setPenCharging => exact h.through (serveSetPenCharging_changes _ _ _) (by decide)
  | hostState => exact h.through (serveHostState_changes _ _ _) (by decide)
  | getSleep => exact h.through (serveGetSleep_changes _ _) (by decide)
  | setSleepPolicy => exact h.through (serveSetSleepPolicy_changes _ _ _) (by decide)
  | setWakeCauses => exact h.through (serveSetWakeCauses_changes _ _ _) (by decide)
  | getConditions => exact h.through (serveGetConditions_changes _ _) (by decide)
  | getHistory => exact h.through (serveGetHistory_changes _ _ _) (by decide)
  | clearConditions => exact h.through (serveClearConditions_changes _ _ _) (by decide)
  | saveSettings => exact h.through (serveSaveSettings_changes _ _) (by decide)
  | restoreDefaults => exact h.through (serveRestoreDefaults_changes _ _) (by decide)

theorem handWaiting_form (n : Nat) (h : HasForm s) : HasForm (handWaiting n s) := by
  induction n generalizing s with
  | zero => exact h
  | succ n ih =>
    unfold handWaiting
    split
    · exact ih (serve_form (s := { s with lc := _ }) _ _ _ h)
    · exact h

theorem goodFrame_form (kind : Nat) (tag : Byte) (payload : List Byte) (h : HasForm s) :
    HasForm (goodFrame kind tag payload s) := by
  have refused : ∀ item lc, HasForm (refuse item { s with lc := lc }) := fun item lc =>
    HasForm.through (s := { s with lc := lc }) h (refuse_changes item _) (by decide)
  unfold goodFrame
  dsimp only
  split
  · exact refused _ _
  · split
    · exact refused _ _
    · split
      · exact refused _ _
      · unfold accept
        dsimp only
        split
        · exact serve_form (s := { s with lc := _ }) _ _ _ h
        · exact h

theorem rxByte_form (b : Byte) (h : HasForm s) : HasForm (rxByte b s) := by
  unfold rxByte
  split
  · exact h
  · exact h
  · exact h
  · split
    · unfold bodyFrame
      split
      · exact goodFrame_form _ _ _ h
      · exact h.through (badFrame_changes _) (by decide)
    · exact h.through (badFrame_changes _) (by decide)

/-! ### Resets -/

/-- R194: a reset ends with the table that it loads. -/
theorem endReset_form (kind : ResetKind) (s : State) : HasForm (endReset kind s) := by
  have starts : ∀ corrupt u, HasForm u → HasForm (startBlocks corrupt u) := fun corrupt u hu =>
    hu.through (startBlocks_changes corrupt u) (by decide)
  exact starts _ _ (loadImage_table_form s.ss.image)

/-- R176: a reset that is held keeps the settings. -/
theorem holdReset_form (kind : ResetKind) (h : HasForm s) : HasForm (holdReset kind s) := h.of_eq rfl

theorem beginReset_form (kind : ResetKind) (h : HasForm s) : HasForm (beginReset kind s) := by
  unfold beginReset
  split
  · exact holdReset_form kind h
  · exact endReset_form kind s

theorem softReset_form (h : HasForm s) : HasForm (softReset s) := by
  unfold softReset
  split
  · exact holdReset_form _ h
  · split
    · exact endReset_form _ _
    · exact holdReset_form _ (h.of_eq rfl)

theorem assertReset_form (h : HasForm s) : HasForm (assertReset s) := by
  unfold assertReset
  split
  · exact h
  · exact holdReset_form _ (h.of_eq rfl)
  · rename_i kind _ _
    split
    · exact holdReset_form _ (h.of_eq rfl)
    · exact holdReset_form _ ((endReset_form kind s.nextChoice).of_eq rfl)

theorem releaseReset_form (h : HasForm s) : HasForm (releaseReset s) := by
  unfold releaseReset
  split
  · exact endReset_form _ _
  · exact h.of_eq rfl

theorem frameSent_form (h : HasForm s) : HasForm (frameSent s) := by
  have freed : ∀ lc, HasForm (afterFrame { s with lc := lc }) := fun lc =>
    (handWaiting_form 4 (s := { s with lc := lc }) (h.of_eq rfl)).through (kick_changes _) (by decide)
  unfold frameSent
  split
  · exact h
  · dsimp only
    split
    · exact softReset_form (h.of_eq rfl)
    · exact freed _
  · exact freed _
  · exact freed _

theorem whileRunning_form {f : State → State} (hf : ∀ {u}, HasForm u → HasForm (f u)) (h : HasForm s) :
    HasForm (whileRunning f s) := by
  unfold whileRunning
  split
  · exact hf h
  · exact h
  · exact hf (endReset_form _ _)

theorem onInput_form {record f : State → State} (hr : ∀ u, (record u).settings = u.settings)
    (hf : ∀ {u}, HasForm u → HasForm (f u)) (h : HasForm s) : HasForm (onInput record f s) := by
  rcases onInput_cases record f s with ⟨-, e⟩ | ⟨k, -, -, e⟩ | ⟨k, -, -, e | e⟩ <;> rw [e]
  · exact hf h
  · exact h.of_eq (hr _)
  · exact h.of_eq (hr s.nextChoice)
  · exact hf (endReset_form _ _)

theorem onExpiry_form {f : State → State} (timer : Timer) (hf : ∀ {u}, HasForm u → HasForm (f u)) (h : HasForm s) :
    HasForm (onExpiry timer f s) := by
  unfold onExpiry
  split
  · exact h
  · exact hf (h.of_eq rfl)

theorem onEnd_form {f : State → State} (inFlight : Bool) (hf : ∀ {u}, HasForm u → HasForm (f u)) (h : HasForm s) :
    HasForm (onEnd inFlight f s) := by
  unfold onEnd
  split
  · exact hf h
  · exact h

/-! ### Commands -/

/-- R61: the loss timer has run out. -/
theorem lossEnded_form (h : HasForm s) : HasForm (baseIsGone { s with bm := { s.bm with loss := none } }) :=
  HasForm.through (s := { s with bm := { s.bm with loss := none } }) h (baseIsGone_changes _) (by decide)

/-- IDENT, the requests and the resets may change the table; every other command leaves it. -/
theorem exec_form (c : Instr) (h : HasForm s) : ∃ t, exec c s = .next t ∧ HasForm t := by
  have run : ∀ {f}, (∀ {u}, HasForm u → HasForm (f u)) → HasForm (whileRunning f s) := fun hf => whileRunning_form hf h
  have leaves : ∀ {m : List Part} {f : State → State}, (∀ u, Changes m u (f u)) → .table ∉ m →
      ∀ {u}, HasForm u → HasForm (f u) := fun c hm _ hu => hu.through (c _) hm
  have runs : ∀ {m : List Part} {f : State → State}, (∀ u, Changes m u (f u)) → .table ∉ m →
      HasForm (whileRunning f s) := fun c hm => run (leaves c hm)
  have expiry : ∀ {m : List Part} {f : State → State} (timer : State → Timer), (∀ u, Changes m u (f u)) → .table ∉ m →
      HasForm (whileRunning (fun u => onExpiry (timer u) f u) s) := fun timer c hm =>
    run fun hu => onExpiry_form (timer _) (leaves c hm) hu
  have ends : ∀ {m : List Part} {f : State → State} (inFlight : State → Bool), (∀ u, Changes m u (f u)) → .table ∉ m →
      HasForm (whileRunning (fun u => onEnd (inFlight u) f u) s) := fun inFlight c hm =>
    run fun hu => onEnd_form (inFlight _) (leaves c hm) hu
  have pin : ∀ {m : List Part} {record f : State → State}, (∀ u, (record u).settings = u.settings) →
      (∀ u, Changes m u (f u)) → .table ∉ m → HasForm (onInput record f s) := fun hr c hm =>
    onInput_form hr (leaves c hm) h
  have request : ∀ kind tag payload, HasForm (whileRunning (request kind tag payload) s) :=
    fun _ _ _ => run (goodFrame_form _ _ _)
  cases c with
  | powerOn => exact ⟨_, rfl, beginReset_form _ h⟩
  | brownout => exact ⟨_, rfl, beginReset_form _ h⟩
  | nrstAsserted => exact ⟨_, rfl, assertReset_form h⟩
  | nrstReleased => exact ⟨_, rfl, releaseReset_form h⟩
  | displayPeriodExpiry => exact ⟨_, rfl, expiry _ readDue_changes (by decide)⟩
  | displayReadSample x y z => exact ⟨_, rfl, ends _ (readSampled_changes _) (by decide)⟩
  | displayReadFailure cause => exact ⟨_, rfl, ends _ (readFailed_changes _) (by decide)⟩
  | displayReadTimeout =>
    exact ⟨_, rfl, run fun hu => onEnd_form _ (fun hv => onExpiry_form _ (leaves (readFailed_changes 3) (by decide)) hv) hu⟩
  | magnetLevelChange magnet level =>
    refine ⟨_, rfl, pin (fun _ => ?_) (magnetChanged_changes _ _) (by decide)⟩
    cases magnet <;> rfl
  | hallDebounceExpiry magnet => exact ⟨_, rfl, expiry _ (magnetHeld_changes _) (by decide)⟩
  | bpresChange level => exact ⟨_, rfl, pin (fun _ => rfl) (bpresChanged_changes _) (by decide)⟩
  | baseSettleTimerExpiry => exact ⟨_, rfl, expiry _ baseSettled_changes (by decide)⟩
  | baseGone => exact ⟨_, rfl, run fun hu => onExpiry_form _ lossEnded_form hu⟩
  | queryTimerExpiry => exact ⟨_, rfl, expiry _ queryExpired_changes (by decide)⟩
  | cyclingTimerExpiry => exact ⟨_, rfl, expiry _ cyclingExpired_changes (by decide)⟩
  | ident serial model draw revision => exact ⟨_, rfl, run (takeIdent_form _)⟩
  | baseSample x y z => exact ⟨_, rfl, runs (baseSampleArrived_changes _) (by decide)⟩
  | quiesced => exact ⟨_, rfl, runs streamPaused_changes (by decide)⟩
  | quiesceTimerExpiry => exact ⟨_, rfl, expiry _ streamPaused_changes (by decide)⟩
  | baseLinkRecordDiscard => exact ⟨_, rfl, h⟩
  | dbtnChange level => exact ⟨_, rfl, pin (fun _ => rfl) (dbtnChanged_changes _) (by decide)⟩
  | buttonHoldExpiry => exact ⟨_, rfl, expiry _ buttonHeld_changes (by decide)⟩
  | consentTimerExpiry => exact ⟨_, rfl, expiry _ consentExpired_changes (by decide)⟩
  | grantWaitExpiry => exact ⟨_, rfl, expiry _ (giveUpLatch_changes _) (by decide)⟩
  | lswChange pos => exact ⟨_, rfl, pin (fun _ => rfl) (lswChanged_changes _) (by decide)⟩
  | openCheckExpiry => exact ⟨_, rfl, expiry _ openCheckFailed_changes (by decide)⟩
  | releaseWindowExpiry => exact ⟨_, rfl, expiry _ (toClosing_changes _) (by decide)⟩
  | closeCheckExpiry => exact ⟨_, rfl, expiry _ closeCheckFailed_changes (by decide)⟩
  | blinkTimerExpiry => exact ⟨_, rfl, expiry _ blinkEnded_changes (by decide)⟩
  | scanPeriodExpiry => exact ⟨_, rfl, expiry _ scanDue_changes (by decide)⟩
  | scanCompletion vsys temp pen => exact ⟨_, rfl, ends _ (scanCompleted_changes _ _ _) (by decide)⟩
  | pdetChange level => exact ⟨_, rfl, pin (fun _ => rfl) (pdetChanged_changes _) (by decide)⟩
  | penSettleTimerExpiry => exact ⟨_, rfl, expiry _ penSettled_changes (by decide)⟩
  | penRemoval => exact ⟨_, rfl, expiry _ penRemoved_changes (by decide)⟩
  | pollTimerExpiry => exact ⟨_, rfl, expiry _ startPoll_changes (by decide)⟩
  | responseTimerExpiry => exact ⟨_, rfl, expiry _ pollUnanswered_changes (by decide)⟩
  | penStatus intact status => exact ⟨_, rfl, runs (penStatusArrived_changes _ _) (by decide)⟩
  | prechargeTimerExpiry => exact ⟨_, rfl, runs prechargeExpired_changes (by decide)⟩
  | safetyTimerExpiry => exact ⟨_, rfl, runs safetyExpired_changes (by decide)⟩
  | triggerTimerExpiry trigger => exact ⟨_, rfl, expiry _ (mature_changes _) (by decide)⟩
  | lidConfirmTimerExpiry => exact ⟨_, rfl, expiry _ lidConfirmed_changes (by decide)⟩
  | wakeTimerExpiry => exact ⟨_, rfl, expiry _ wakeExpired_changes (by decide)⟩
  | gapTimerExpiry => exact ⟨_, rfl, expiry _ nextAttempt_changes (by decide)⟩
  | uptimeTick => exact ⟨_, rfl, expiry (fun u => some u.nextSecond) tickUptime_changes (by decide)⟩
  | lengthByteAbandon byte => exact ⟨_, rfl, runs (lengthAbandon_changes _) (by decide)⟩
  | rxGapTimeout => exact ⟨_, rfl, expiry _ gapExpired_changes (by decide)⟩
  | frameReject => exact ⟨_, rfl, runs badFrame_changes (by decide)⟩
  | unknownKindFrame kind tag payload => exact ⟨_, rfl, run (goodFrame_form _ _ _)⟩
  | txFrameDone => exact ⟨_, rfl, run frameSent_form⟩
  | commitWriteDone faulty => exact ⟨_, rfl, runs (writeDone_changes _) (by decide)⟩
  | commitVerifyDone => exact ⟨_, rfl, runs verifyDone_changes (by decide)⟩
  | rxdByte byte => exact ⟨_, rfl, run (rxByte_form _)⟩
  | _ => exact ⟨_, rfl, request _ _ _⟩

/-- Settles O37: the form is kept by BM's list operations, and a reset loads a table that has it. -/
theorem stepKeepsTableLaw : Obligations.StepKeepsTableLaw := by
  intro s t law offsets e
  rw [← tableForm_iff]
  have h : HasForm s := (tableForm_iff s).mpr ⟨law, offsets⟩
  unfold step at e
  split at e
  · cases e
    exact whileRunning_form (fun hu => HasForm.of_eq hu rfl) h
  · rename_i c rest _
    obtain ⟨u, hexec, hu⟩ := exec_form (s := { s with pending := rest }) c (h.of_eq rfl)
    cases hexec.symm.trans e
    exact hu

end Sys2Proof.Machine

/-!
SET_BASE_POLICY and the acceptance policy under RESTORE_DEFAULTS (R79).
-/
namespace Sys2Proof.Machine

variable {place : Nat} {s : State}

/-- R79: a policy code replaces the policy and is answered OK. -/
theorem serveSetBasePolicy_known {payload : List Byte} {policy : BasePolicy}
    (h : basePolicyOf (u8 payload 0) = some policy) :
    serveSetBasePolicy place payload s =
      answer place { result := .ok, content := .none } { s with settings := { s.settings with basePolicy := policy } } := by
  simp only [serveSetBasePolicy, h]
  rfl

theorem serveSetBasePolicy_unknown {payload : List Byte} (h : basePolicyOf (u8 payload 0) = none) :
    serveSetBasePolicy place payload s = answer place (Reply.code .badValue) s := by
  simp only [serveSetBasePolicy, h]

/-- R79: the request with a byte that names a policy. -/
theorem exec_setBasePolicy_known {tag b : Byte} {policy : BasePolicy} (h : Ready .setBasePolicy s)
    (hb : basePolicyOf (u8 [b] 0) = some policy) :
    exec (.setBasePolicy tag [b]) s =
      .next (replied .setBasePolicy tag [b] { result := .ok, content := .none }
        { s with settings := { s.settings with basePolicy := policy } }) :=
  exec_request_replied (k := .setBasePolicy)
    (u := fun u => { u with settings := { u.settings with basePolicy := policy } }) h rfl
    (serveSetBasePolicy_known (payload := [b]) (s := inSlot .setBasePolicy tag [b] .taken s) hb) rfl

/-- 10.8: 0 is ACCEPT, 1 is REFUSE, and no other byte names a policy. -/
theorem basePolicyOf_other {b : Byte} (h0 : b ≠ 0#8) (h1 : b ≠ 1#8) : basePolicyOf (u8 [b] 0) = none := by
  have above : ∀ n, 1 < n → basePolicyOf n = none
    | _ + 2, _ => rfl
  refine above _ ?_
  show 1 < b.toNat
  bv_omega

/-- R79: RESTORE_DEFAULTS sets the acceptance policy back to ACCEPT. -/
theorem serveRestoreDefaults_basePolicy (place : Nat) (s : State) :
    (serveRestoreDefaults place s).settings.basePolicy = .accept := by
  unfold serveRestoreDefaults
  rw [answer_settings]
  exact (requestCommit_changes _).same .basePolicy (by decide)

/-- Settles O36: the byte decides the policy, and the owner's service of RESTORE_DEFAULTS leaves the table. -/
theorem basePolicyRequest : Obligations.BasePolicyRequest := by
  intro tag b s
  refine ⟨fun h => ?_, fun h => ⟨_, exec_request_ready h rfl, ?_, ?_⟩⟩
  · by_cases h0 : b = 0#8
    · subst h0
      exact exec_setBasePolicy_known h rfl
    · rw [if_neg h0]
      by_cases h1 : b = 1#8
      · subst h1
        exact exec_setBasePolicy_known h rfl
      · rw [if_neg h1]
        exact exec_request_answered (k := .setBasePolicy) h rfl (serveSetBasePolicy_unknown (basePolicyOf_other h0 h1))
  · exact serveRestoreDefaults_basePolicy _ _
  · exact (serveRestoreDefaults_changes _ _).same .table (by decide)

end Sys2Proof.Machine

/-!
What passes between the blocks when BM changes its state or its claims (R62, R115).

A report of BM and a notice of RBA reach PE, SPU, SFE and PDC, whose own acts send events, choose the part mode again and
break the base filter. `Relayed s t` says once what all of these have in common: events are offered one after the other
(`Told`), a broken base filter stays broken (`Broken`), and, where no base is attached or the part is ACTIVE with a running
host (`Calm`), nobody touches the base stream. A property that such steps keep (`Kept`) holds through every free order.
-/
namespace Sys2Proof.Machine

open Sys2Proof.Claims

variable {s t u : State} {m : List Part}

/-! ### A block's record, from the parts that make it up -/

/-- The parts that make up BM's base record. -/
def bmParts : List Part := [.presence, .bmState, .identify, .stream, .marks, .active]

/-- The parts that make up BM's detach record. -/
def detParts : List Part := [.button, .blink, .attempt, .lsol, .lsw]

/-- The parts that make up CM's record. -/
def cmParts : List Part := [.live, .latched, .history, .cause, .uptime]

/-- The parts that make up RBA's record. -/
def rbaParts : List Part := [.capacity, .claims, .penClaim, .grants]

/-- The parts that make up LC's record. -/
def lcParts : List Part := [.assembler, .link, .grant, .queue, .gate]

/-- The parts that make up the working settings. -/
def settingsParts : List Part :=
  [.tuning, .sleepPolicy, .wakeTable, .detachPolicy, .basePolicy, .penSettings, .table]

/-- The parts that make up SS's record. -/
def ssParts : List Part := [.image, .commit]

theorem Changes.bm_eq (c : Changes m s t) (hm : ∀ p ∈ bmParts, p ∉ m) : t.bm = s.bm := by
  have same : ∀ p ∈ bmParts, p.Same s t := fun p hp => c.same p (hm p hp)
  simp only [bmParts, List.forall_mem_cons, Part.Same, Prod.mk.injEq] at same
  cases hs : s.bm
  cases ht : t.bm
  simp_all

theorem Changes.det_eq (c : Changes m s t) (hm : ∀ p ∈ detParts, p ∉ m) : t.det = s.det := by
  have same : ∀ p ∈ detParts, p.Same s t := fun p hp => c.same p (hm p hp)
  simp only [detParts, List.forall_mem_cons, Part.Same, Prod.mk.injEq] at same
  cases hs : s.det
  cases ht : t.det
  simp_all

theorem Changes.cm_eq (c : Changes m s t) (hm : ∀ p ∈ cmParts, p ∉ m) : t.cm = s.cm := by
  have same : ∀ p ∈ cmParts, p.Same s t := fun p hp => c.same p (hm p hp)
  simp only [cmParts, List.forall_mem_cons, Part.Same, Prod.mk.injEq] at same
  cases hs : s.cm
  cases ht : t.cm
  simp_all

theorem Changes.rba_eq (c : Changes m s t) (hm : ∀ p ∈ rbaParts, p ∉ m) : t.rba = s.rba := by
  have same : ∀ p ∈ rbaParts, p.Same s t := fun p hp => c.same p (hm p hp)
  simp only [rbaParts, List.forall_mem_cons, Part.Same, Prod.mk.injEq] at same
  cases hs : s.rba
  cases ht : t.rba
  simp_all

theorem Changes.lc_eq (c : Changes m s t) (hm : ∀ p ∈ lcParts, p ∉ m) : t.lc = s.lc := by
  have same : ∀ p ∈ lcParts, p.Same s t := fun p hp => c.same p (hm p hp)
  simp only [lcParts, List.forall_mem_cons, Part.Same, Prod.mk.injEq] at same
  cases hs : s.lc
  cases ht : t.lc
  simp_all

theorem Changes.settings_eq (c : Changes m s t) (hm : ∀ p ∈ settingsParts, p ∉ m) : t.settings = s.settings := by
  have same : ∀ p ∈ settingsParts, p.Same s t := fun p hp => c.same p (hm p hp)
  simp only [settingsParts, List.forall_mem_cons, Part.Same] at same
  cases hs : s.settings
  cases ht : t.settings
  simp_all

theorem Changes.ss_eq (c : Changes m s t) (hm : ∀ p ∈ ssParts, p ∉ m) : t.ss = s.ss := by
  have same : ∀ p ∈ ssParts, p.Same s t := fun p hp => c.same p (hm p hp)
  simp only [ssParts, List.forall_mem_cons, Part.Same, Prod.mk.injEq] at same
  cases hs : s.ss
  cases ht : t.ss
  simp_all

/-! ### Events offered one after the other -/

/-- LC's record after any number of offers. -/
def Told : Lc → Lc → Prop := Relation.ReflTransGen fun a b => ∃ e s, State.lc s = a ∧ b = (offer e s).lc

theorem Told.refl (lc : Lc) : Told lc lc := Relation.ReflTransGen.refl

theorem Told.of_eq {a b : Lc} (h : b = a) : Told a b := h ▸ .refl a

theorem Told.trans {a b c : Lc} (h : Told a b) (g : Told b c) : Told a c := Relation.ReflTransGen.trans h g

theorem Told.of_changes (c : Changes m s t) (hm : ∀ p ∈ lcParts, p ∉ m) : Told s.lc t.lc := .of_eq (c.lc_eq hm)

theorem offer_told (e : Event) (s : State) : Told s.lc (offer e s).lc := .single ⟨e, s, rfl, rfl⟩

/-- An operation over an update of other records. -/
theorem Told.after {f : State → State} (hf : ∀ v, Told v.lc (f v).lc) (h : u.lc = s.lc) : Told s.lc (f u).lc := h ▸ hf u

/-- What every offer keeps, any number of them keep. -/
theorem Told.keeps {P : Lc → Prop} (ho : ∀ e s, P s.lc → P (offer e s).lc) {a b : Lc} (h : Told a b) (ha : P a) :
    P b := by
  induction h with
  | refl => exact ha
  | tail _ step ih =>
    obtain ⟨e, v, rfl, rfl⟩ := step
    exact ho e v ih

theorem raceLc_told {emit act : State → State} (he : ∀ u, Told u.lc (emit u).lc) (ha : ∀ u, Told u.lc (act u).lc)
    (s : State) : Told s.lc (raceLc emit act s).lc :=
  raceLc_keeps (P := fun u => Told s.lc u.lc) (fun _ h => h) (fun u h => h.trans (he u)) (fun u h => h.trans (ha u))
    (.refl _)

theorem rise_told (c : Cond) (detail : Nat) (s : State) : Told s.lc (rise c detail s).lc := by
  unfold rise
  split
  · exact .refl _
  · exact .after (offer_told _) rfl

theorem evalTrigger_told (tr : Trigger) (s : State) : Told s.lc (evalTrigger tr s).lc := by
  have ripens : ∀ u : Spu, Told s.lc (mature tr { s with spu := u }).lc := fun u => by
    unfold mature
    dsimp only
    split
    · exact .after (offer_told _) rfl
    · exact .refl _
  unfold evalTrigger triggerBegins triggerEnds
  dsimp only
  split
  · exact .refl _
  · split
    · split
      · exact ripens _
      · exact .refl _
    · split
      · split
        · exact .after (offer_told _) rfl
        · exact .refl _
      · exact .refl _

theorem spuView_told (s : State) : Told s.lc (spuView s).lc := by
  have both : ∀ a b v, v.lc = s.lc → Told s.lc (evalTrigger a (evalTrigger b v)).lc := fun a b v hv =>
    hv ▸ (evalTrigger_told b v).trans (evalTrigger_told a _)
  unfold spuView
  dsimp only
  split
  · exact eitherOrder_holds (P := fun u => Told s.lc u.lc) (both _ _ _ rfl) (both _ _ _ rfl)
  · exact both _ _ _ rfl

theorem emitPosture_told (old p : Pe) (s : State) : Told s.lc (emitPosture old p s).lc := by
  unfold emitPosture
  dsimp only
  split <;> split
  · exact (offer_told _ s).trans (offer_told _ _)
  · exact offer_told _ _
  · exact offer_told _ _
  · exact .refl _

theorem peStep_told {report : State → State} (hr : ∀ u, Told u.lc (report u).lc) (p : Pe) (s : State) :
    Told s.lc (peStep report p s).lc := by
  unfold peStep
  dsimp only
  split
  · exact .after (raceLc_told (emitPosture_told _ _) hr) rfl
  · exact .after hr rfl

/-! ### A broken base filter -/

/-- The base filter is EMPTY and the posture is not fresh: what a discontinuity of the base filter leaves (R13, R48). -/
def Broken (s : State) : Prop := s.sfe.bFilter = none ∧ s.pe.fresh = false

theorem Broken.through (h : Broken s) (c : Changes m s t) (hm : ∀ p ∈ [Part.baseSamples, .freshness], p ∉ m) :
    Broken t := by
  have samples := c.same .baseSamples (hm _ (by decide))
  have freshness := c.same .freshness (hm _ (by decide))
  simp only [Part.Same, Prod.mk.injEq] at samples freshness
  obtain ⟨hfilter, -⟩ := samples
  obtain ⟨hfresh, -⟩ := freshness
  exact ⟨hfilter.trans h.1, hfresh.trans h.2⟩

theorem settled_fresh (old p : Pe) : (settled old p).fresh = p.fresh := by
  unfold settled
  dsimp only
  split <;> rfl

theorem peStep_spuView_broken {p : Pe} (hfilter : s.sfe.bFilter = none) (hfresh : p.fresh = false) :
    Broken (peStep spuView p s) := by
  have settles : Broken { s with pe := settled s.pe p } := ⟨hfilter, (settled_fresh _ _).trans hfresh⟩
  unfold peStep
  dsimp only
  split
  · exact raceLc_keeps (P := Broken) (fun _ h => h) (fun u h => h.through (emitPosture_changes _ _ u) (by decide))
      (fun u h => h.through (spuView_changes u) (by decide)) settles
  · exact settles.through (spuView_changes _) (by decide)

/-- R13, R48: a discontinuity of the base filter empties it and ends the freshness. -/
theorem breakBase_broken (s : State) : Broken (breakBase s) := peStep_spuView_broken rfl rfl

theorem breakBoth_broken (s : State) : Broken (breakBoth s) := peStep_spuView_broken rfl rfl

theorem breakBase_told (s : State) : Told s.lc (breakBase s).lc :=
  .after (f := fun u => peStep spuView u.pe.broken u) (fun _ => peStep_told spuView_told _ _) rfl

theorem breakBoth_told (s : State) : Told s.lc (breakBoth s).lc :=
  .after (f := fun u => peStep spuView u.pe.broken u) (fun _ => peStep_told spuView_told _ _) rfl

/-! ### Reports and notices among the blocks -/

/-- What the blocks may change while nobody touches the base stream. -/
def calmParts : List Part :=
  [.reader, .display, .baseSamples, .locks, .forcing, .freshness, .abstain, .hingeBase, .scanPeriod, .claims, .grants,
    .polls, .charging, .mode, .causes, .episode] ++ viewParts

/-- What the blocks may change at a report or a notice. -/
def relayParts : List Part := [.stream, .baseView, .late, .live, .btx] ++ calmParts

/-- The part is ACTIVE with a running host, so that the mode stands (R159). -/
def Awake (s : State) : Prop := s.spu.host = .running ∧ s.spu.mode = .active

/-- A choice of part mode does not reach the base stream: no base is attached, or the mode stands. -/
def Calm (s : State) : Prop := BmState.hasBase s.bm.state = false ∨ Awake s

/-- `t` follows `s` by events, reports and notices among the blocks. -/
structure Relayed (s t : State) : Prop where
  frame : Changes relayParts s t
  told : Told s.lc t.lc
  broken : Broken s → Broken t
  awake : Awake s → Awake t
  calm : Calm s → Changes calmParts s t

theorem Relayed.isCalm (r : Relayed s t) (h : Calm s) : Calm t := by
  have state : t.bm.state = s.bm.state := r.frame.same .bmState (by decide)
  exact h.imp (fun hb => state ▸ hb) r.awake

theorem Relayed.refl (s : State) : Relayed s s := ⟨.refl _ _, .refl _, id, id, fun _ => .refl _ _⟩

theorem Relayed.trans (r : Relayed s t) (q : Relayed t u) : Relayed s u :=
  ⟨r.frame.trans q.frame, r.told.trans q.told, q.broken ∘ r.broken, q.awake ∘ r.awake,
    fun h => (r.calm h).trans (q.calm (r.isCalm h))⟩

/-- A change of calm parts other than the mode. -/
theorem Relayed.of_changes (c : Changes m s t) (hm : m ⊆ calmParts) (hmode : .mode ∉ m) (told : Told s.lc t.lc)
    (broken : Broken s → Broken t) : Relayed s t := by
  have host : t.spu.host = s.spu.host := c.same .host fun h => absurd (hm h) (by decide)
  have mode : t.spu.mode = s.spu.mode := c.same .mode hmode
  exact ⟨c.mono fun p hp => List.mem_append_right _ (hm hp), told, broken,
    fun h => ⟨host.trans h.1, mode.trans h.2⟩, fun _ => c.mono hm⟩

/-- A change of calm parts in which nothing is sent. -/
theorem Relayed.silent (c : Changes m s t) (hm : m ⊆ calmParts)
    (hn : ∀ p ∈ [Part.mode, .baseSamples, .freshness] ++ lcParts, p ∉ m) : Relayed s t :=
  .of_changes c hm (hn _ (by decide))
    (.of_changes c fun p hp => hn p (List.mem_append_right _ hp))
    fun h => h.through c fun p hp => hn p (List.mem_append_left _ (List.mem_cons_of_mem _ hp))

theorem nextChoice_relayed (s : State) : Relayed s s.nextChoice :=
  .silent (nextChoice_changes s) (by decide) (by decide)

theorem offer_relayed (e : Event) (s : State) : Relayed s (offer e s) :=
  .of_changes (offer_changes e s) (by decide) (by decide) (offer_told e s)
    fun h => h.through (offer_changes e s) (by decide)

theorem spuView_relayed (s : State) : Relayed s (spuView s) :=
  .of_changes (spuView_changes s) (by decide) (by decide) (spuView_told s)
    fun h => h.through (spuView_changes s) (by decide)

theorem emitPosture_relayed (old p : Pe) (s : State) : Relayed s (emitPosture old p s) :=
  .of_changes (emitPosture_changes old p s) (by decide) (by decide) (emitPosture_told old p s)
    fun h => h.through (emitPosture_changes old p s) (by decide)

theorem raceLc_relayed {emit act : State → State} (he : ∀ u, Relayed u (emit u)) (ha : ∀ u, Relayed u (act u)) (s : State) :
    Relayed s (raceLc emit act s) :=
  raceLc_keeps (P := Relayed s) (fun u h => h.trans (nextChoice_relayed u)) (fun u h => h.trans (he u))
    (fun u h => h.trans (ha u)) (.refl s)

/-- A step of PE that moves its forcing, its machines or its freshness, and makes nothing fresh. -/
theorem peStep_relayed {report : State → State} {p : Pe} (hr : ∀ u, Relayed u (report u))
    (c : Changes [.locks, .forcing, .freshness, .abstain] s { s with pe := p })
    (hfresh : s.pe.fresh = false → p.fresh = false) : Relayed s (peStep report p s) := by
  have settles : Relayed s { s with pe := settled s.pe p } :=
    .of_changes (m := [.locks, .forcing, .freshness, .abstain, .reported])
      ((c.mono (by decide)).step (settled_changes s.pe p s) (by decide)) (by decide) (by decide) (.refl _)
      fun h => ⟨h.1, (settled_fresh _ _).trans (hfresh h.2)⟩
  unfold peStep
  dsimp only
  split
  · exact settles.trans (raceLc_relayed (emitPosture_relayed _ _) hr _)
  · exact settles.trans (hr _)

theorem breakBase_relayed (s : State) : Relayed s (breakBase s) :=
  .of_changes (breakBase_changes s) (by decide) (by decide) (breakBase_told s) fun _ => breakBase_broken s

/-! ### The part mode -/

theorem sfeMode_relayed (old : PartMode) (s : State) : Relayed s (sfeMode old s) := by
  refine .of_changes (sfeMode_changes old s) (by decide) (by decide) ?_ fun h => ?_
  · unfold sfeMode
    split
    · exact .refl _
    · split
      · exact breakBoth_told s
      · exact .refl _
  · unfold sfeMode
    split
    · exact h
    · split
      · exact breakBoth_broken s
      · exact h

theorem peMode_relayed (s : State) : Relayed s (peMode s) := by
  unfold peMode
  split
  · refine peStep_relayed spuView_relayed ⟨fun p hp => ?_⟩ fun _ => rfl
    cases p <;> first | rfl | exact absurd (by decide) hp
  · exact .refl s

theorem smMode_relayed (s : State) : Relayed s (smMode s) := .silent (smMode_changes s) (by decide) (by decide)

theorem compareStream_told (s : State) : Told s.lc (compareStream s).lc := by
  have resumes : Told s.lc (resumeStream s).lc := by
    refine Told.trans (.of_eq ?_) (breakBase_told _)
    exact (sfeView_changes _).lc_eq (by decide)
  unfold compareStream
  split
  · split
    · exact .refl _
    · exact resumes
  · split
    · exact .of_changes (quiesceStream_changes s) (by decide)
    · exact .refl _

theorem compareStream_broken (h : Broken s) : Broken (compareStream s) := by
  unfold compareStream
  split
  · split
    · exact h
    · exact breakBase_broken _
  · split
    · exact h.through (quiesceStream_changes s) (by decide)
    · exact h

theorem bmMode_told (old : PartMode) (s : State) : Told s.lc (bmMode old s).lc := by
  unfold bmMode
  split
  · exact .refl _
  · exact compareStream_told s

theorem bmMode_broken (old : PartMode) (h : Broken s) : Broken (bmMode old s) := by
  unfold bmMode
  split
  · exact h
  · exact compareStream_broken h

/-- R71: without a base BM has no stream to compare. -/
theorem compareStream_unbased (h : BmState.hasBase s.bm.state = false) : compareStream s = s := by
  have unwanted : streamWanted s = false := by
    cases hs : s.bm.state <;> simp_all [streamWanted, BmState.hasBase]
  simp [compareStream, unwanted, h]

theorem bmMode_unbased (old : PartMode) (h : BmState.hasBase s.bm.state = false) : bmMode old s = s := by
  simp [bmMode, h, compareStream_unbased h]

theorem changeMode_told (mode : PartMode) (s : State) : Told s.lc (changeMode mode s).lc := by
  have sensing : Told s.lc (sfeMode s.spu.mode { s with spu := { s.spu with mode := mode } }).lc :=
    .after (fun v => (sfeMode_relayed _ v).told) rfl
  exact ((sensing.trans (smMode_relayed _).told).trans (bmMode_told _ _)).trans (peMode_relayed _).told

theorem changeMode_broken (mode : PartMode) (h : Broken s) : Broken (changeMode mode s) := by
  have sensing : Broken (sfeMode s.spu.mode { s with spu := { s.spu with mode := mode } }) :=
    (sfeMode_relayed _ _).broken h
  exact (peMode_relayed _).broken (bmMode_broken _ ((smMode_relayed _).broken sensing))

/-- R160: without a base a change of mode does not reach the base stream. -/
theorem changeMode_unbased (mode : PartMode) (h : BmState.hasBase s.bm.state = false) :
    Changes calmParts s (changeMode mode s) := by
  let chosen : State := { s with spu := { s.spu with mode := mode } }
  have choice : Changes [.mode] s chosen := by
    refine ⟨fun p hp => ?_⟩
    cases p <;> first | rfl | exact absurd (by decide) hp
  have sensing := (sfeMode_relayed s.spu.mode chosen).trans (smMode_relayed _)
  have unbased : BmState.hasBase (smMode (sfeMode s.spu.mode chosen)).bm.state = false :=
    (sensing.frame.same .bmState (by decide)).symm ▸ h
  have acts := sensing.trans (peMode_relayed _)
  unfold changeMode
  rw [bmMode_unbased _ unbased]
  exact (choice.mono (by decide)).trans (acts.calm (.inl h))

/-- R159, R160: with a running host in ACTIVE the mode stands; otherwise only BM's act reaches the base stream. -/
theorem chooseMode_relayed (s : State) : Relayed s (chooseMode s) := by
  by_cases stands : modeWanted s = s.spu.mode
  · rw [chooseMode_idle stands]
    exact .refl s
  · have asleep : ¬ Awake s := fun h => stands (by simp [modeWanted, h.1, h.2])
    have moves : chooseMode s = changeMode (modeWanted s) s := if_neg stands
    exact
      { frame := (chooseMode_changes s).mono (by decide)
        told := moves ▸ changeMode_told _ s
        broken := fun h => moves ▸ changeMode_broken _ h
        awake := fun h => absurd h asleep
        calm := fun h => moves ▸ changeMode_unbased _ (h.resolve_right asleep) }

/-- R152, R154: a cause is noted, or it starts a wake episode with a choice of mode. -/
theorem cause_relayed (c : WakeCause) (s : State) : Relayed s (cause c s) := by
  have noted : ∀ pending causes, Relayed s { s with spu := { s.spu with pending := pending, causes := causes } } :=
    fun _ _ => by
    refine .silent (m := [.causes]) ⟨fun p hp => ?_⟩ (by decide) (by decide)
    cases p <;> first | rfl | exact absurd (by decide) hp
  have started : ∀ causes, Relayed s { s with spu := s.spu.episode s.now s.settings.sleep causes } := fun _ => by
    refine .silent (m := [.spuState, .causes, .episode]) ⟨fun p hp => ?_⟩ (by decide) (by decide)
    cases p <;> first | rfl | exact absurd (by decide) hp
  unfold cause takeCause
  split
  · cases s.spu.state with
    | suspending => exact noted _ _
    | waking => exact noted _ _
    | asleep => exact (started _).trans (chooseMode_relayed _)
    | _ => exact .refl s
  · exact .refl s

theorem spuPosture_relayed (changed : Bool) (s : State) : Relayed s (spuPosture changed s) := by
  unfold spuPosture
  split
  · exact (spuView_relayed s).trans (cause_relayed _ _)
  · exact spuView_relayed s

/-! ### BM's reports (R62) -/

theorem Pe.force_fresh (new : Situation) (p : Pe) : (p.force new).fresh = p.fresh := by
  unfold Pe.force
  split
  · rfl
  · cases new <;> rfl

theorem peForcing_relayed (s : State) : Relayed s (peForcing s) := by
  unfold peForcing
  split
  · exact .refl s
  · exact peStep_relayed (spuPosture_relayed _) ((Pe.force_changes _ s.pe s).mono (by decide))
      fun h => (Pe.force_fresh _ _).trans h

theorem peBm_relayed (s : State) : Relayed s (peBm s) := by
  refine Relayed.trans (.silent (m := [.hingeBase]) ⟨fun p hp => ?_⟩ (by decide) (by decide)) (peForcing_relayed _)
  cases p <;> first | rfl | exact absurd (by decide) hp

theorem spuBm_relayed (attach : Bool) (s : State) : Relayed s (spuBm attach s) := by
  unfold spuBm
  split
  · exact (cause_relayed _ s).trans (chooseMode_relayed _)
  · exact chooseMode_relayed s

/-! ### Notices to PDC (R115, R130) -/

theorem pdcStep_relayed {f : State → State} (hf : ∀ v, Relayed v (f v)) (s : State) : Relayed s (pdcStep none f s) := by
  have emits : ∀ (news : Bool) e v, Relayed v ((if news = true then offer e else id) v) := fun news e v => by
    cases news with
    | false => exact .refl v
    | true => exact offer_relayed e v
  unfold pdcStep
  dsimp only
  split
  · exact (hf s).trans (emits _ _ _)
  · exact (hf s).trans (raceLc_relayed (emits _ _) chooseMode_relayed _)

theorem noticePen_relayed (s : State) : Relayed s (noticePen s) := by
  unfold noticePen
  split
  · exact pdcStep_relayed (fun v => .silent (takeNotice_changes _ v) (by decide) (by decide)) s
  · exact .refl s

/-- A new claim table and what it makes PDC do. -/
theorem claims_relayed (r : Rba) (hcapacity : r.capacity = s.rba.capacity) (hpen : r.pen = s.rba.pen) :
    Relayed s (noticePen { s with rba := r }) := by
  refine Relayed.trans (.silent (m := [.claims, .grants]) ⟨fun p hp => ?_⟩ (by decide) (by decide)) (noticePen_relayed _)
  cases p <;> first | rfl | exact hcapacity | exact hpen | exact absurd (by decide) hp

theorem fileBase_relayed (amount : Nat) (s : State) : Relayed s (fileBase amount s) := claims_relayed _ rfl rfl

theorem withdrawBase_relayed (s : State) : Relayed s (withdrawBase s) := by
  unfold withdrawBase
  split
  · exact .refl s
  · exact claims_relayed _ rfl rfl

theorem withdrawLatch_relayed (s : State) : Relayed s (withdrawLatch s) := by
  unfold withdrawLatch
  split
  · exact .refl s
  · exact claims_relayed _ rfl rfl

/-! ### The claims of BM (R112 to R114) -/

theorem noticePen_rba (s : State) : (noticePen s).rba = s.rba := (noticePen_changes s).rba_eq (by decide)

theorem fileBase_rba (amount : Nat) (s : State) :
    (fileBase amount s).rba =
      ({ s.rba with base := some { requested := amount, minimum := amount } } : Rba).compute := noticePen_rba _

/-- R114: a claim whose minimum is its request is granted in full or not at all; BASE is served first. -/
theorem fileBase_grant (amount : Nat) (s : State) :
    (fileBase amount s).rba.grants.base = if amount ≤ s.rba.capacity then amount else 0 := by
  rw [fileBase_rba]
  simp only [Rba.compute, grantTable, grantOf, le_min_iff, le_refl, true_and]
  split
  · exact min_eq_left ‹_›
  · rfl

theorem fileBase_claim (amount : Nat) (s : State) :
    (fileBase amount s).rba.base = some { requested := amount, minimum := amount } := by
  rw [fileBase_rba]
  rfl

/-- R66, R114: BM's claim is granted when the capacity reaches its amount. -/
theorem baseGranted_fileBase (amount : Nat) (s : State) :
    baseGranted (fileBase amount s) = decide (amount ≤ s.rba.capacity) := by
  simp only [baseGranted, fileBase_claim, fileBase_grant, decide_eq_decide]
  split
  · simpa using ‹_›
  · omega

theorem withdrawBase_claims (s : State) :
    (withdrawBase s).rba.base = none ∧ (withdrawBase s).rba.latch = s.rba.latch := by
  unfold withdrawBase
  split
  · exact ⟨‹_›, rfl⟩
  · rw [noticePen_rba]
    exact ⟨rfl, rfl⟩

theorem withdrawLatch_claims (s : State) :
    (withdrawLatch s).rba.latch = none ∧ (withdrawLatch s).rba.base = s.rba.base := by
  unfold withdrawLatch
  split
  · exact ⟨‹_›, rfl⟩
  · rw [noticePen_rba]
    exact ⟨rfl, rfl⟩

/-! ### Properties that pass through BM's report -/

/-- A property that events, reports and notices among the blocks keep. -/
def Kept (P : State → Prop) : Prop := ∀ {v w}, Relayed v w → P v → P w

theorem Kept.and {P Q : State → Prop} (hP : Kept P) (hQ : Kept Q) : Kept fun v => P v ∧ Q v :=
  fun r h => ⟨hP r h.1, hQ r h.2⟩

/-- R62: BM's own acts turn `P` into `Q`, and what PE and SPU do before or after them keeps both. -/
theorem bmReport_turns {P Q : State → Prop} (hP : Kept P) (hQ : Kept Q) (attach : Bool) {acts : State → State}
    (ha : ∀ v, P v → Q (acts v)) (h : P (sfeView s)) : Q (bmReport attach acts s) := by
  have choice : ∀ v, Relayed v v.nextChoice := nextChoice_relayed
  have pe := peBm_relayed
  have spu := spuBm_relayed attach
  unfold bmReport
  dsimp only
  split
  · exact ha _ h
  · unfold anyOrder
    split
    · exact eitherOrder_holds (ha _ (hP (spu _) (hP (choice _) (hP (pe _) (hP (choice _) h)))))
        (hQ (spu _) (ha _ (hP (choice _) (hP (pe _) (hP (choice _) h)))))
    · split
      · exact eitherOrder_holds (ha _ (hP (pe _) (hP (choice _) (hP (spu _) (hP (choice _) (hP (choice _) h))))))
          (hQ (pe _) (ha _ (hP (choice _) (hP (spu _) (hP (choice _) (hP (choice _) h))))))
      · have done := ha _ (hP (choice _) (hP (choice _) h))
        exact eitherOrder_holds (hQ (spu _) (hQ (pe _) (hQ (choice _) done)))
          (hQ (pe _) (hQ (spu _) (hQ (choice _) done)))

theorem bmReport_keeps {P : State → Prop} (hP : Kept P) (attach : Bool) {acts : State → State}
    (ha : ∀ v, P v → P (acts v)) (h : P (sfeView s)) : P (bmReport attach acts s) := bmReport_turns hP hP attach ha h

/-- The state is calm and agrees with `s` but for what the blocks change in calm. -/
def CalmAfter (s t : State) : Prop := Calm t ∧ Changes calmParts s t

theorem calmAfter_kept (s : State) : Kept (CalmAfter s) := fun r h => ⟨r.isCalm h.1, h.2.trans (r.calm h.1)⟩

theorem CalmAfter.relayed (h : CalmAfter s t) (r : Relayed t u) : CalmAfter s u := calmAfter_kept s r h

theorem Calm.after (h : Calm s) : CalmAfter s s := ⟨h, .refl _ _⟩

theorem told_kept (lc : Lc) : Kept fun v => Told lc v.lc := fun r h => h.trans r.told

theorem sfeView_bm (s : State) : (sfeView s).bm = s.bm := (sfeView_changes s).bm_eq (by decide)

theorem sfeView_lc (s : State) : (sfeView s).lc = s.lc := (sfeView_changes s).lc_eq (by decide)

theorem sfeView_calm (h : Calm s) : Calm (sfeView s) := by
  have host : (sfeView s).spu.host = s.spu.host := (sfeView_changes s).same .host (by decide)
  have mode : (sfeView s).spu.mode = s.spu.mode := (sfeView_changes s).same .mode (by decide)
  unfold Calm Awake
  rw [sfeView_bm, host, mode]
  exact h

/-- R62: a report with no act of BM's own, in calm. -/
theorem bmReport_calm (h : Calm s) (attach : Bool) : CalmAfter (sfeView s) (bmReport attach id s) :=
  bmReport_keeps (calmAfter_kept _) attach (fun _ hv => hv) (sfeView_calm h).after

theorem bmReport_told (attach : Bool) {acts : State → State} (ha : ∀ v, Told v.lc (acts v).lc) (s : State) :
    Told s.lc (bmReport attach acts s).lc :=
  bmReport_keeps (told_kept s.lc) attach (fun v hv => hv.trans (ha v)) (.of_eq (sfeView_lc s))

end Sys2Proof.Machine

/-!
The base from its presence to its identity (R60 to R65). In these states no base is attached, so BM's reports are calm:
they leave BM's record, BTX and the timebase as they are, and BM's own acts at the report decide what is sent.
-/
namespace Sys2Proof.Machine

open Sys2Proof.Claims

variable {s t u : State}

/-! ### Commands of a running part -/

theorem onInput_running {record f : State → State} (h : s.held = none) : onInput record f s = f s := by
  simp only [onInput, h]

theorem exec_bpresChange (level : Level) (h : s.held = none) :
    exec (.bpresChange level) s = .next (bpresChanged level s) :=
  congrArg Host.Outcome.next (onInput_running h)

/-- A command of a base timer takes the timer's expiry. -/
theorem expiry_running {d : Nat} (timer : State → Timer) (f : State → State) (h : s.held = none)
    (ht : timer s = some d) : whileRunning (fun v => onExpiry (timer v) f v) s = f (runTo d s) := by
  rw [whileRunning_running _ h, onExpiry_some _ _ ht]

theorem expiry_idle (timer : State → Timer) (f : State → State) (h : s.held = none) (ht : timer s = none) :
    whileRunning (fun v => onExpiry (timer v) f v) s = s := by
  rw [whileRunning_running _ h, onExpiry_none _ _ ht]

theorem whenIn_here {here : Bool} (t : Timer) (h : here = true) : whenIn here t = t := if_pos h

theorem whenIn_elsewhere {here : Bool} (t : Timer) (h : here = false) : whenIn here t = none :=
  if_neg (by simp [h])

/-! ### BM's record and BTX at a calm report -/

/-- What no calm change reaches, while the part stays calm, passes through BM's report. -/
theorem calm_kept {P : State → Prop} (h : ∀ {v w}, Changes calmParts v w → P v → P w) : Kept fun v => Calm v ∧ P v :=
  fun r hv => ⟨r.isCalm hv.1, h (r.calm hv.1) hv.2⟩

/-- BM's record and what has been sent on BTX, at this time. -/
def BaseAt (b : Bm) (sent : List BaseTx) (now : Nat) (v : State) : Prop := v.bm = b ∧ v.btx = sent ∧ v.now = now

theorem BaseAt.through {m : List Part} {b : Bm} {sent : List BaseTx} {now : Nat} (h : BaseAt b sent now s)
    (c : Changes m s t) (hm : ∀ p ∈ [Part.btx, .now] ++ bmParts, p ∉ m) : BaseAt b sent now t := by
  obtain ⟨hbm, hbtx, hnow⟩ := h
  have bm : t.bm = s.bm := c.bm_eq fun p hp => hm p (List.mem_append_right _ hp)
  have btx : t.btx = s.btx := c.same .btx (hm _ (by decide))
  have now : t.now = s.now := c.same .now (hm _ (by decide))
  exact ⟨bm.trans hbm, btx.trans hbtx, now.trans hnow⟩

theorem baseAt_self (s : State) : BaseAt s.bm s.btx s.now s := ⟨rfl, rfl, rfl⟩

theorem CalmAfter.baseAt {b : Bm} {sent : List BaseTx} {now : Nat} (h : CalmAfter s t) (hs : BaseAt b sent now s) :
    BaseAt b sent now t := hs.through h.2 (by decide)

theorem sfeView_baseAt (s : State) : BaseAt s.bm s.btx s.now (sfeView s) :=
  (baseAt_self s).through (sfeView_changes s) (by decide)

/-- R62: a calm report at which BM has nothing to do leaves its record and sends nothing to the base. -/
theorem bmReport_baseAt (h : Calm s) (attach : Bool) : BaseAt s.bm s.btx s.now (bmReport attach id s) :=
  (bmReport_calm h attach).baseAt (sfeView_baseAt s)

/-- R62: at a calm report BM's own acts decide its record and BTX. -/
theorem bmReport_baseAt_acts {b : Bm} {sent : List BaseTx} {acts : State → State} (h : Calm s) (attach : Bool)
    (ha : ∀ v, Calm v → BaseAt s.bm s.btx s.now v → Calm (acts v) ∧ BaseAt b sent s.now (acts v)) :
    BaseAt b sent s.now (bmReport attach acts s) :=
  (bmReport_turns (P := fun v => Calm v ∧ BaseAt s.bm s.btx s.now v) (Q := fun v => Calm v ∧ BaseAt b sent s.now v)
    (calm_kept fun c hv => hv.through c (by decide)) (calm_kept fun c hv => hv.through c (by decide)) attach
    (fun v hv => ha v hv.1 hv.2) ⟨sfeView_calm h, sfeView_baseAt s⟩).2

/-! ### Presence (R60, R61) -/

theorem bpresChanged_same {level : Level} (h : level = s.bm.bpres) : bpresChanged level s = s := if_pos h

theorem bpresChanged_arrives {level : Level} (h : level ≠ s.bm.bpres) (hs : s.bm.state = .absent)
    (hl : level = .asserted) :
    bpresChanged level s = bmReport false id (toSettling { s with bm := { s.bm with bpres := level } }) := by
  subst hl
  simp only [bpresChanged, if_neg h, hs]

theorem bpresChanged_leaves {level : Level} (h : level ≠ s.bm.bpres) (hs : s.bm.state = .settling)
    (hl : level = .released) :
    bpresChanged level s =
      bmReport false id { s with bm := { s.bm with bpres := level, state := .absent, settle := none } } := by
  subst hl
  simp only [bpresChanged, if_neg h, hs]

theorem bpresChanged_idle {level : Level} (h : level ≠ s.bm.bpres)
    (hs : (s.bm.state = .absent ∧ level = .released) ∨ (s.bm.state = .settling ∧ level = .asserted)) :
    bpresChanged level s = { s with bm := { s.bm with bpres := level } } := by
  rcases hs with ⟨hs, rfl⟩ | ⟨hs, rfl⟩ <;> simp only [bpresChanged, if_neg h, hs]

theorem bpresChanged_later (level : Level) (s : State) :
    level ≠ s.bm.bpres → s.bm.state ≠ .absent → s.bm.state ≠ .settling →
    bpresChanged level s =
      { s with
        bm := { s.bm with
          bpres := level, loss := match level with | .released => some (s.now + 20) | .asserted => none } } := by
  intro h ha hs
  unfold bpresChanged
  rw [if_neg h]
  cases hst : s.bm.state with
  | absent => exact absurd hst ha
  | settling => exact absurd hst hs
  | _ => cases level <;> simp only [hst]

/-! ### Powering and identification (R62, R64) -/

/-- BM's base record once it has asked for the identity (R62, R64). -/
def Bm.asking (now : Nat) (b : Bm) : Bm :=
  { b with state := .identifying, bpwr := true, phase := some .query1, queryOut := true, query := some (now + 500) }

theorem askIdentity_baseAt {b : Bm} {sent : List BaseTx} {now : Nat} (h : BaseAt b sent now s) :
    BaseAt { b with queryOut := true, query := some (now + 500) } (sent ++ [.identQuery]) now (askIdentity s) := by
  obtain ⟨rfl, rfl, rfl⟩ := h
  exact ⟨rfl, rfl, rfl⟩

theorem startIdentify_baseAt {b : Bm} {sent : List BaseTx} {now : Nat} (h : BaseAt b sent now s) :
    BaseAt (b.asking now) (sent ++ [.identQuery]) now (startIdentify s) := by
  obtain ⟨rfl, rfl, rfl⟩ := h
  refine bmReport_baseAt_acts (.inl rfl) false fun v hcalm hv => ⟨hcalm, ?_⟩
  exact askIdentity_baseAt hv

/-- BM in POWERING, its claim filed (R62, R66). -/
def poweringFiled (amount : Nat) (s : State) : State :=
  fileBase amount (bmReport false id { s with bm := s.bm.powering })

theorem bmReport_id_rba (attach : Bool) (s : State) : (bmReport attach id s).rba = s.rba :=
  (bmReport_changes (m := reportParts) (by decide) (fun v => .refl _ v) s).rba_eq (by decide)

/-- R62: BM powers the base when its claim is granted. -/
theorem toPowering_eq (amount : Nat) (s : State) :
    toPowering amount s =
      if amount ≤ s.rba.capacity then startIdentify (poweringFiled amount s) else poweringFiled amount s := by
  have granted : baseGranted (poweringFiled amount s) = decide (amount ≤ s.rba.capacity) := by
    rw [poweringFiled, baseGranted_fileBase, bmReport_id_rba]
  show powerIfGranted (poweringFiled amount s) = _
  simp only [powerIfGranted, granted, decide_eq_true_eq]

theorem poweringFiled_baseAt (amount : Nat) (s : State) :
    BaseAt s.bm.powering s.btx s.now (poweringFiled amount s) := by
  have report : CalmAfter _ (bmReport false id { s with bm := s.bm.powering }) := bmReport_calm (.inl rfl) false
  exact (report.relayed (fileBase_relayed amount _)).baseAt (sfeView_baseAt _)

theorem toPowering_granted {amount : Nat} (h : amount ≤ s.rba.capacity) :
    BaseAt (s.bm.powering.asking s.now) (s.btx ++ [.identQuery]) s.now (toPowering amount s) := by
  rw [toPowering_eq, if_pos h]
  exact startIdentify_baseAt (poweringFiled_baseAt amount s)

theorem toPowering_ungranted {amount : Nat} (h : s.rba.capacity < amount) :
    BaseAt s.bm.powering s.btx s.now (toPowering amount s) := by
  rw [toPowering_eq, if_neg (by omega)]
  exact poweringFiled_baseAt amount s

/-- R62, R114: BM's claim and its grant in POWERING, or in IDENTIFYING after it. -/
theorem toPowering_rba (amount : Nat) (s : State) :
    (toPowering amount s).rba.base = some { requested := amount, minimum := amount } ∧
    (toPowering amount s).rba.grants.base = if amount ≤ s.rba.capacity then amount else 0 := by
  have kept : (toPowering amount s).rba = (poweringFiled amount s).rba := by
    rw [toPowering_eq]
    split
    · exact (startIdentify_changes _).rba_eq (by decide)
    · rfl
  rw [kept, poweringFiled, fileBase_claim, fileBase_grant, bmReport_id_rba]
  exact ⟨rfl, rfl⟩

/-- R62: the end of the settle time files the claim of 120 mA, and a granted claim powers the base. -/
theorem toPowering_settled (s : State) :
    (toPowering 120 s).bm.settle = none ∧
    (toPowering 120 s).rba.base = some { requested := 120, minimum := 120 } ∧
    (120 ≤ s.rba.capacity →
      (toPowering 120 s).bm.state = .identifying ∧ (toPowering 120 s).bm.bpwr = true ∧
      (toPowering 120 s).bm.phase = some .query1 ∧ (toPowering 120 s).bm.queryOut = true ∧
      (toPowering 120 s).bm.query = some (s.now + 500) ∧ (toPowering 120 s).btx = s.btx ++ [.identQuery] ∧
      (toPowering 120 s).rba.grants.base = 120) ∧
    (s.rba.capacity < 120 →
      (toPowering 120 s).bm.state = .powering ∧ (toPowering 120 s).bm.bpwr = false ∧
      (toPowering 120 s).bm.phase = none ∧ (toPowering 120 s).btx = s.btx ∧
      (toPowering 120 s).rba.grants.base = 0) := by
  obtain ⟨claim, grant⟩ := toPowering_rba 120 s
  rw [claim, grant]
  by_cases h : 120 ≤ s.rba.capacity
  · obtain ⟨bm, btx, -⟩ := toPowering_granted h
    rw [bm, btx, if_pos h]
    exact ⟨rfl, rfl, fun _ => ⟨rfl, rfl, rfl, rfl, rfl, rfl, rfl⟩, fun g => by omega⟩
  · obtain ⟨bm, btx, -⟩ := toPowering_ungranted (Nat.lt_of_not_le h)
    rw [bm, btx, if_neg h]
    exact ⟨rfl, rfl, fun g => absurd g h, fun _ => ⟨rfl, rfl, rfl, rfl, rfl⟩⟩

/-- Settles O30: each move of BPRES is a record update or one calm report, and the end of the settle time is
`toPowering_settled`. -/
theorem basePresence : Obligations.BasePresence := by
  intro l s held
  rw [exec_bpresChange l held]
  refine ⟨fun h => ?_, fun h hs hl => ⟨_, rfl, ?_, ?_⟩, fun h hs hl => ⟨_, rfl, ?_, ?_⟩, fun h hs => ?_, fun h ha hs => ?_,
    fun d hd hs => ?_, fun hs => ?_, fun hloss => ?_⟩
  · rw [bpresChanged_same h]
  · rw [bpresChanged_arrives h hs hl]
    exact (bmReport_baseAt (.inl rfl) false).1
  · exact (bpresChanged_changes l s).mono (by decide)
  · rw [bpresChanged_leaves h hs hl]
    exact (bmReport_baseAt (.inl rfl) false).1
  · exact (bpresChanged_changes l s).mono (by decide)
  · rw [bpresChanged_idle h hs]
  · exact congrArg Host.Outcome.next (bpresChanged_later l s h ha hs)
  · obtain ⟨settle, claim, granted, ungranted⟩ := toPowering_settled (runTo d s)
    refine ⟨_, congrArg Host.Outcome.next (expiry_running _ _ held ((whenIn_here _ (decide_eq_true hs)).trans hd)),
      settle, claim, granted, ungranted, ?_⟩
    exact ((runTo_changes d s).mono (by decide)).step (baseSettled_changes _) (by decide)
  · exact congrArg Host.Outcome.next (expiry_idle _ _ held (whenIn_elsewhere _ (decide_eq_false hs)))
  · exact congrArg Host.Outcome.next (expiry_idle _ _ held hloss)

end Sys2Proof.Machine

/-!
The timers of the identification (R64, R65), and a condition that rises at a report of BM (R165, R170).
-/
namespace Sys2Proof.Machine

open Sys2Proof.Claims

variable {s t u v : State} {c : Cond} {detail : Nat}

/-! ### A rise (R165, R170) -/

theorem bitHas_bitAdd_self {n i : Nat} (x : BitVec n) (h : i < n) : bitHas (bitAdd x i) i = true := by
  simp [bitHas, bitAdd, h]

theorem bitHas_bitDrop_of_clear {n i j : Nat} {x : BitVec n} (h : bitHas x i = false) : bitHas (bitDrop x j) i = false := by
  have clear : x.getLsbD i = false := h
  simp [bitHas, bitDrop, clear]

theorem bitHas_bitDrop_self {n i : Nat} (x : BitVec n) : bitHas (bitDrop x i) i = false := by
  by_cases h : i < n <;> simp [bitHas, bitDrop, h]

theorem cond_idx_lt (c : Cond) : c.idx < 14 := by cases c <;> decide

/-- R165, R170: a condition that is not live yet rises, with its history record. -/
theorem rise_rose (h : c.isState = true → bitHas s.cm.live c.idx = false) : Rose c detail s (rise c detail s) := by
  have fresh : ¬ (c.isState = true ∧ bitHas s.cm.live c.idx = true) := fun g => by simp [h g.1] at g
  have cm : (rise c detail s).cm = s.cm.risen c (historyNow c detail s) := by rw [rise, if_neg fresh, offer_cm]
  rw [Rose, cm]
  refine ⟨bitHas_bitAdd_self _ (cond_idx_lt c), fun kind => ?_, rfl, _, rfl, rfl, rfl, rfl, rfl⟩
  simp only [Cm.risen, if_pos kind]
  exact bitHas_bitAdd_self _ (cond_idx_lt c)

/-- A rise looks at the history before it and at CM's record after it. -/
theorem Rose.congr (h : Rose c detail s t) (hring : u.cm.ring = s.cm.ring) (hnext : u.cm.next = s.cm.next)
    (hcm : v.cm = t.cm) : Rose c detail u v := by
  unfold Rose at h ⊢
  rwa [hring, hnext, hcm]

theorem Changes.history_eq {m : List Part} (h : Changes m s t) (hm : .history ∉ m) :
    t.cm.ring = s.cm.ring ∧ t.cm.next = s.cm.next := Prod.mk.inj (h.same .history hm)

/-- R12, R62: SFE's view can clear the late flag, and with it one live flag. -/
theorem sfeView_live_clear {i : Nat} (h : bitHas s.cm.live i = false) : bitHas (sfeView s).cm.live i = false := by
  unfold sfeView
  dsimp only
  split
  · exact bitHas_bitDrop_of_clear h
  · exact h

/-- R62: a condition that rises in BM's own acts at a calm report. -/
theorem bmReport_rose {acts : State → State} (attach : Bool) (h : Calm s)
    (ha : ∀ v, Calm v → v.cm = (sfeView s).cm → Calm (acts v) ∧ Rose c detail v (acts v)) :
    Rose c detail s (bmReport attach acts s) := by
  have cm_kept : ∀ {v w : State}, Changes calmParts v w → w.cm = v.cm := fun g => g.cm_eq (by decide)
  obtain ⟨ring, next⟩ := (sfeView_changes s).history_eq (by decide)
  exact (bmReport_turns (P := fun v => Calm v ∧ v.cm = (sfeView s).cm) (Q := fun v => Calm v ∧ Rose c detail s v)
    (calm_kept fun g hv => (cm_kept g).trans hv) (calm_kept fun g hv => hv.congr rfl rfl (cm_kept g)) attach
    (fun v hv => ⟨(ha v hv.1 hv.2).1, (ha v hv.1 hv.2).2.congr (by rw [hv.2, ring]) (by rw [hv.2, next]) rfl⟩)
    ⟨sfeView_calm h, rfl⟩).2

theorem rise_calm (h : Calm s) : Calm (rise c detail s) := by
  have state : (rise c detail s).bm.state = s.bm.state := (rise_changes c detail s).same .bmState (by decide)
  have host : (rise c detail s).spu.host = s.spu.host := (rise_changes c detail s).same .host (by decide)
  have mode : (rise c detail s).spu.mode = s.spu.mode := (rise_changes c detail s).same .mode (by decide)
  unfold Calm Awake
  rw [state, host, mode]
  exact h

/-! ### The end of a query and of the cycling (R64, R65) -/

theorem queryExpired_first (h : s.bm.phase = some .query1) :
    queryExpired s =
      { s with
        bm := { s.bm with
          queryOut := false, query := none, bpwr := false, phase := some .cycling, cycling := some (s.now + 50) } } := by
  simp only [queryExpired, h]

/-- BM's base record when its second query has gone unanswered (R65). -/
def Bm.unidentified (b : Bm) : Bm :=
  { b with queryOut := false, query := none, bpwr := false, state := .failed, phase := none }

theorem queryExpired_second (h : s.bm.phase = some .query2) :
    queryExpired s = bmReport false (rise .baseIdFail 2) (withdrawBase { s with bm := s.bm.unidentified }) := by
  simp only [queryExpired, h]
  rfl

/-- R65: the base has failed, its claim is withdrawn, and BASE_ID_FAIL rises unless it is live. -/
theorem queryExpired_fails (h : s.bm.phase = some .query2) :
    (queryExpired s).bm = s.bm.unidentified ∧ (queryExpired s).rba.base = none ∧
    (bitHas s.cm.live Cond.baseIdFail.idx = false → Rose .baseIdFail 2 s (queryExpired s)) := by
  rw [queryExpired_second h]
  let dropped : State := { s with bm := s.bm.unidentified }
  have withdrawn : CalmAfter dropped (withdrawBase dropped) :=
    CalmAfter.relayed (Calm.after (.inl rfl)) (withdrawBase_relayed dropped)
  have bm : (withdrawBase dropped).bm = s.bm.unidentified := withdrawn.2.bm_eq (by decide)
  have cm : (withdrawBase dropped).cm = s.cm := withdrawn.2.cm_eq (by decide)
  refine ⟨?_, ?_, fun clear => ?_⟩
  · have report := bmReport_baseAt_acts (acts := rise .baseIdFail 2) withdrawn.1 false fun v hcalm hv =>
      ⟨rise_calm hcalm, hv.through (rise_changes _ _ v) (by decide)⟩
    exact report.1.trans bm
  · have rba := (bmReport_changes (m := [.latched, .history] ++ reportParts) (a := false) (by decide)
      (fun v => (rise_changes .baseIdFail 2 v).mono (by decide)) (withdrawBase dropped)).rba_eq (by decide)
    rw [rba]
    exact (withdrawBase_claims dropped).1
  · refine Rose.congr (bmReport_rose false withdrawn.1 fun v hcalm hv => ⟨rise_calm hcalm, rise_rose fun _ => ?_⟩)
      (by rw [cm]) (by rw [cm]) rfl
    rw [hv]
    exact sfeView_live_clear (cm ▸ clear)

/-- Settles O31: the first query and the cycling are record updates, the second query is `queryExpired_fails`. -/
theorem identificationTimers : Obligations.IdentificationTimers := by
  intro d s held
  have runs : ∀ (timer : Timer) (f : State → State), s.bm.state = .identifying → timer = some d →
      onExpiry (whenIn (decide (s.bm.state = .identifying)) timer) f s = f (runTo d s) := fun timer f hs ht => by
    rw [whenIn_here _ (decide_eq_true hs), onExpiry_some _ _ ht]
  have stays : ∀ (timer : Timer) (f : State → State), s.bm.state ≠ .identifying ∨ timer = none →
      onExpiry (whenIn (decide (s.bm.state = .identifying)) timer) f s = s := fun timer f h => by
    refine onExpiry_none _ _ ?_
    by_cases hs : s.bm.state = .identifying
    · exact (whenIn_here _ (decide_eq_true hs)).trans (h.resolve_left fun g => g hs)
    · exact whenIn_elsewhere _ (decide_eq_false hs)
  simp only [exec, execQueryTimerExpiry, execCyclingTimerExpiry, whileRunning_running _ held]
  refine ⟨fun hs hq hp => ?_, fun hs hq hp => ?_, fun hs hc => ?_, fun h => ?_, fun h => ?_⟩
  · rw [runs _ _ hs hq, queryExpired_first (s := runTo d s) hp]
    rfl
  · rw [runs _ _ hs hq]
    obtain ⟨bm, claim, rose⟩ := queryExpired_fails (s := runTo d s) hp
    exact ⟨_, rfl, bm, claim, rose, ((runTo_changes d s).mono (by decide)).step (queryExpired_changes _) (by decide)⟩
  · rw [runs _ _ hs hc]
    rfl
  · rw [stays _ _ h]
  · rw [stays _ _ h]

end Sys2Proof.Machine

/-!
Messages that other acts follow: an event that has been queued, and a reply that stands READY or is being sent, stay so
through any number of offers (`Told`).
-/
namespace Sys2Proof.Machine

open Sys2Proof.Claims

variable {s t : State} {place : Nat} {kind : ReqKind} {tag : Byte} {r : Reply} {e : Event} {lc : Lc}

/-- What LC's record decides and every offer keeps, offers among other acts keep. -/
theorem Told.passes {P : State → Prop} (blind : ∀ {v w : State}, w.lc = v.lc → P v → P w)
    (ho : ∀ e v, P v → P (offer e v)) (h : Told s.lc t.lc) (hs : P s) : P t :=
  h.keeps (P := fun lc => ∀ v : State, v.lc = lc → P v) (fun e v hv _ hw => blind hw (ho e v (hv v rfl)))
    (fun _ hv => blind hv hs) t rfl

/-! ### Events in the queue (R188, R189) -/

/-- The transmitter is sending, and the class is granted: an event of it goes into the queue. -/
def Taking (cls : EventClass) (lc : Lc) : Prop := lc.tx.isSome = true ∧ bitHas lc.grant cls.idx = true

/-- The transmitter is sending, and the event stands in the queue unless one has been dropped. -/
def Waits (e : Event) (lc : Lc) : Prop := lc.tx.isSome = true ∧ (e ∈ lc.queue ∨ lc.lost = true)

theorem Waits.queued (h : Waits e s.lc) : Queued e s := h.2

theorem Lc.enqueue_tx (e : Event) (lc : Lc) : (lc.enqueue e).tx = lc.tx := by
  unfold Lc.enqueue
  repeat' split
  all_goals rfl

/-- While the transmitter is sending an offer reaches the queue at most. -/
theorem offer_lc_sending (e : Event) (h : s.lc.tx.isSome = true) :
    (offer e s).lc = if bitHas s.lc.grant e.kind.cls.idx = true then s.lc.enqueue e else s.lc := by
  have idle : kick { s with lc := s.lc.enqueue e } = { s with lc := s.lc.enqueue e } :=
    kick_sending ((congrArg Option.isSome (Lc.enqueue_tx e s.lc)).trans h)
  unfold offer
  rw [idle]
  split <;> rfl

theorem offer_taking {cls : EventClass} (e : Event) (h : Taking cls s.lc) : Taking cls (offer e s).lc := by
  obtain ⟨-, grant, -⟩ := Lc.enqueue_same e s.lc
  rw [offer_lc_sending e h.1]
  split
  · rw [Taking, Lc.enqueue_tx, grant]
    exact h
  · exact h

theorem Told.taking {cls : EventClass} {a b : Lc} (h : Told a b) (ha : Taking cls a) : Taking cls b :=
  h.keeps (fun _ _ => offer_taking _) ha

/-- An event of an occurrence kind that is offered while its class is granted goes into the queue (R188). -/
theorem offer_waits (occurs : e.kind.isState = false) (h : Taking e.kind.cls s.lc) : Waits e (offer e s).lc := by
  rw [offer_lc_sending e h.1, if_pos h.2]
  refine ⟨(congrArg Option.isSome (Lc.enqueue_tx e s.lc)).trans h.1, ?_⟩
  have other : e.kind ≠ .vectors := fun k => by rw [k] at occurs; cases occurs
  unfold Lc.enqueue
  rw [if_neg fun k => by simp [occurs] at k, if_neg other]
  split
  · exact .inl (List.mem_append_right _ (List.mem_singleton_self e))
  · split
    · exact .inl (List.mem_append_right _ (List.mem_singleton_self e))
    · exact .inr rfl

/-- R189: an event of an occurrence kind is not replaced or removed by a later one. -/
theorem Lc.enqueue_mem (occurs : e.kind.isState = false) (x : Event) (h : e ∈ lc.queue ∨ lc.lost = true) :
    e ∈ (lc.enqueue x).queue ∨ (lc.enqueue x).lost = true := by
  unfold Lc.enqueue
  split
  · rename_i coalesces
    refine h.imp (fun hmem => List.mem_map.mpr ⟨e, hmem, if_neg fun same => ?_⟩) id
    simp [← same, occurs] at coalesces
  · split
    · exact h.imp (List.mem_append_left _) id
    · split
      · exact h
      · split
        · refine h.imp (fun hmem => List.mem_append_left _ ?_) id
          refine (List.mem_eraseP_of_neg ?_).mpr hmem
          intro same
          rw [beq_iff_eq] at same
          rw [same] at occurs
          cases occurs
        · exact .inr rfl

theorem offer_keeps_waiting (occurs : e.kind.isState = false) (x : Event) (h : Waits e s.lc) : Waits e (offer x s).lc := by
  rw [offer_lc_sending x h.1]
  split
  · exact ⟨(congrArg Option.isSome (Lc.enqueue_tx x s.lc)).trans h.1, Lc.enqueue_mem occurs x h.2⟩
  · exact h

theorem Told.waits (occurs : e.kind.isState = false) {a b : Lc} (h : Told a b) (ha : Waits e a) : Waits e b :=
  h.keeps (fun x _ => offer_keeps_waiting occurs x) ha

/-- R62: an event of BM's own acts at a report stands in the queue after the report. -/
theorem bmReport_waits {P : State → Prop} (hP : Kept P) (occurs : e.kind.isState = false) (attach : Bool)
    {acts : State → State} (ha : ∀ v, P v → Taking e.kind.cls v.lc → Waits e (acts v).lc) (h : P (sfeView s))
    (htaking : Taking e.kind.cls s.lc) : Waits e (bmReport attach acts s).lc :=
  bmReport_turns (P := fun v => P v ∧ Taking e.kind.cls v.lc) (hP.and fun r hv => r.told.taking hv)
    (fun r hv => r.told.waits occurs hv) attach (fun v hv => ha v hv.1 hv.2) ⟨h, (sfeView_lc s).symm ▸ htaking⟩

/-! ### Replies (R181, R183) -/

theorem InPlace.of_slots {phase : SlotPhase} (h : InPlace place kind tag phase s) (e : t.lc.slots = s.lc.slots) :
    InPlace place kind tag phase t := by
  rwa [InPlace, e]

/-- A phase given to a place reaches the request in that place alone. -/
theorem InPlace.of_setPhase {phase other : SlotPhase} {q : Nat} (h : InPlace place kind tag phase s)
    (e : t.lc.slots = setPhase q other s.lc.slots) :
    InPlace place kind tag (if place = q then other else phase) t := by
  obtain ⟨⟨own, hown, hplace⟩, hall⟩ := h
  have keeps : ∀ x : Slot, (if x.place = q then { x with phase := other } else x).place = x.place := fun x => by
    split <;> rfl
  rw [InPlace, e]
  refine ⟨⟨_, List.mem_map_of_mem hown, (keeps own).trans hplace⟩, fun sl hmem hsl => ?_⟩
  obtain ⟨x, hx, rfl⟩ := List.mem_map.mp hmem
  obtain ⟨xkind, xtag, xphase⟩ := hall x hx ((keeps x).symm.trans hsl)
  have xplace : x.place = place := (keeps x).symm.trans hsl
  rw [xplace]
  split
  · exact ⟨xkind, xtag, rfl⟩
  · exact ⟨xkind, xtag, xphase⟩

/-- The request in this place, and no other, has its reply READY or being sent. -/
def AnsweredIn (place : Nat) (kind : ReqKind) (tag : Byte) (r : Reply) (s : State) : Prop :=
  (∃ n, InPlace place kind tag (.ready r n) s) ∨
  (InPlace place kind tag .sending s ∧ s.lc.tx = some (.reply kind tag r))

theorem AnsweredIn.answered (h : AnsweredIn place kind tag r s) : Answered kind tag r s := by
  rcases h with ⟨n, ⟨sl, hmem, hplace⟩, hall⟩ | ⟨⟨⟨sl, hmem, hplace⟩, hall⟩, htx⟩
  · obtain ⟨slkind, sltag, slphase⟩ := hall sl hmem hplace
    exact ⟨sl, hmem, slkind, sltag, .inl ⟨n, slphase⟩⟩
  · obtain ⟨slkind, sltag, slphase⟩ := hall sl hmem hplace
    exact ⟨sl, hmem, slkind, sltag, .inr ⟨slphase, htx⟩⟩

theorem AnsweredIn.of_lc (h : AnsweredIn place kind tag r s) (e : t.lc = s.lc) : AnsweredIn place kind tag r t := by
  unfold AnsweredIn InPlace at h ⊢
  rwa [e]

/-- The transmitter leaves a READY reply, or starts it; one being sent it does not interrupt (R183). -/
theorem kick_answeredIn (h : AnsweredIn place kind tag r s) : AnsweredIn place kind tag r (kick s) := by
  unfold kick
  split
  · exact h
  · rename_i idle
    rcases h with ⟨n, h⟩ | ⟨-, busy⟩
    · rcases Lc.choose_cases s.spu.host s.lc with e | ⟨sl, rsl, m, hmem, hready, e⟩
      · exact .inl ⟨n, h.of_slots e⟩
      · have moved := h.of_setPhase (t := { s with lc := s.lc.choose s.spu.host })
          ((congrArg Lc.slots e).trans (Lc.startReply_slots _ _ _))
        split at moved
        · rename_i same
          obtain ⟨slkind, sltag, slphase⟩ := h.2 sl hmem same.symm
          cases hready.symm.trans slphase
          refine .inr ⟨moved, (congrArg Lc.tx e).trans ?_⟩
          rw [Lc.startReply_tx, slkind, sltag]
        · exact .inl ⟨n, moved⟩
    · cases idle.symm.trans busy

theorem offer_answeredIn (e : Event) (h : AnsweredIn place kind tag r s) : AnsweredIn place kind tag r (offer e s) := by
  unfold offer
  split
  · refine kick_answeredIn ?_
    rcases h with ⟨n, ready⟩ | ⟨sending, htx⟩
    · exact .inl ⟨n, ready.of_slots (Lc.enqueue_slots e s.lc)⟩
    · exact .inr ⟨sending.of_slots (Lc.enqueue_slots e s.lc), (Lc.enqueue_tx e s.lc).trans htx⟩
  · exact h

theorem Told.answeredIn (h : Told s.lc t.lc) (hs : AnsweredIn place kind tag r s) : AnsweredIn place kind tag r t :=
  h.passes (fun e hv => hv.of_lc e) (fun e _ => offer_answeredIn e) hs

theorem Told.takenIn (h : Told s.lc t.lc) (hs : TakenIn place kind tag s) : TakenIn place kind tag t :=
  h.passes (fun e hv => hv.of_slots (congrArg Lc.slots e)) (fun e _ => offer_takenIn e) hs

/-- The owner's answer puts the reply in the place of the request (R181). -/
theorem answer_answeredIn (r : Reply) (h : TakenIn place kind tag s) : AnsweredIn place kind tag r (answer place r s) := by
  have slots : s.lc.slots.map (fun sl => if sl.place ∈ [place] then { sl with phase := .ready r s.lc.moments } else sl) =
      setPhase place (.ready r s.lc.moments) s.lc.slots := by simp [setPhase]
  have ready := InPlace.of_setPhase (other := .ready r s.lc.moments) (q := place)
    (t := { s with lc := { s.lc with slots := setPhase place (.ready r s.lc.moments) s.lc.slots, moments := s.lc.moments + 1 } })
    h rfl
  rw [if_pos rfl] at ready
  unfold answer answerAll
  rw [slots]
  exact kick_answeredIn (.inl ⟨_, ready⟩)

/-- An answer and an act that sends events, in either order, leave the request answered. -/
theorem raceLc_answered {act : State → State} (ha : ∀ v, Told v.lc (act v).lc) (h : TakenIn place kind tag s) :
    Answered kind tag r (raceLc (answer place r) act s) := by
  rcases raceLc_cases (answer place r) act s with e | e | e <;> rw [e]
  · exact (answer_answeredIn r ((ha s).takenIn h)).answered
  · exact ((ha _).answeredIn (answer_answeredIn (s := s.nextChoice) r h)).answered
  · exact (answer_answeredIn r ((ha s.nextChoice).takenIn (s := s.nextChoice) h)).answered

end Sys2Proof.Machine

/-!
An IDENT that answers the query (R63, R66 to R70): the claim of the base decides between POWERING and the identity check,
the check attaches, admits or refuses. The attachment is one report of BM (`toAttached`) over the record it has written.
-/
namespace Sys2Proof.Machine

open Sys2Proof.Claims

variable {s t u : State} {i : Identity}

/-! ### Commits (R74, R195) -/

theorem requestCommit_commitAsked (s : State) : commitAsked s (requestCommit s) := by
  unfold requestCommit
  cases h : s.ss.state <;> simp [commitAsked, startCommit, h]

/-- A commit is a matter of SS's record and the settings. -/
theorem commitAsked_congr {v w : State} (h : commitAsked s t) (hss : v.ss = s.ss) (hss' : w.ss = t.ss)
    (hsettings : w.settings = t.settings) : commitAsked v w := by
  unfold commitAsked at h ⊢
  rwa [hss, hss', hsettings]

/-- R74: a change of the table requests a commit. -/
theorem setTable_commitAsked {table : List BaseEntry} (h : table ≠ s.settings.table) :
    commitAsked s (setTable table s) := by
  rw [setTable, if_neg h]
  exact commitAsked_congr (requestCommit_commitAsked { s with settings := { s.settings with table := table } }) rfl rfl rfl

theorem setTable_bm (table : List BaseEntry) (s : State) : (setTable table s).bm = s.bm :=
  (setTable_changes table s).bm_eq (by decide)

/-- R68: the marks of a new entry. -/
theorem createEntry_bm (i : Identity) (s : State) :
    (createEntry i s).bm = { s.bm with newEntry := true, evicted := evictedBy i.serial s.settings.table } :=
  setTable_bm _ _

theorem createEntry_commitAsked (h : rankFirst (entryOf i) s.settings.table ≠ s.settings.table) :
    commitAsked s (createEntry i s) :=
  commitAsked_congr
    (setTable_commitAsked
      (s := { s with bm := { s.bm with newEntry := true, evicted := evictedBy i.serial s.settings.table } }) h) rfl rfl rfl

/-! ### PE's record of the base (R37) -/

/-- The serial that PE holds while a base is attached, and none otherwise. -/
def heldSerial (s : State) : Option Serial := if BmState.hasBase s.bm.state = true then s.pe.serial else none

theorem heldSerial_of_changes {m : List Part} (c : Changes m s t) (hm : ∀ p ∈ [Part.hingeBase, .bmState], p ∉ m) :
    heldSerial t = heldSerial s ∧ t.pe.offset = s.pe.offset := by
  have base : (t.pe.serial, t.pe.offset) = (s.pe.serial, s.pe.offset) := c.same .hingeBase (hm _ (by decide))
  have state : t.bm.state = s.bm.state := c.same .bmState (hm _ (by decide))
  obtain ⟨serial, offset⟩ := Prod.mk.inj base
  exact ⟨by rw [heldSerial, heldSerial, state, serial], offset⟩

/-- R37: PE's part of BM's report drops the serial where no base is attached. -/
theorem peBm_serial (s : State) : (peBm s).pe.serial = heldSerial s :=
  (Prod.mk.inj ((peForcing_changes { s with pe := { s.pe with serial := heldSerial s } }).same .hingeBase (by decide))).1

theorem peBm_heldSerial (s : State) : heldSerial (peBm s) = heldSerial s ∧ (peBm s).pe.offset = s.pe.offset := by
  have state : (peBm s).bm.state = s.bm.state := (peBm_changes s).same .bmState (by decide)
  have base := (peForcing_changes { s with pe := { s.pe with serial := heldSerial s } }).same .hingeBase (by decide)
  refine ⟨?_, (Prod.mk.inj base).2⟩
  rw [heldSerial, state, peBm_serial]
  unfold heldSerial
  split <;> rfl

/-- What each of three acts keeps, and the choices do not touch. -/
theorem anyOrder_turns {P Q : State → Prop} {f g h : State → State} (hcP : ∀ v, P v → P v.nextChoice)
    (hcQ : ∀ v, Q v → Q v.nextChoice) (hf : ∀ v, P v → Q (f v)) (hgP : ∀ v, P v → P (g v)) (hgQ : ∀ v, Q v → Q (g v))
    (hhP : ∀ v, P v → P (h v)) (hhQ : ∀ v, Q v → Q (h v)) (hs : P s) : Q (anyOrder f g h s) := by
  have one := hcP _ hs
  have two := hcP _ one
  unfold anyOrder
  split
  · exact eitherOrder_holds (hhQ _ (hgQ _ (hcQ _ (hf _ one)))) (hgQ _ (hhQ _ (hcQ _ (hf _ one))))
  · split
    · exact eitherOrder_holds (hhQ _ (hf _ (hcP _ (hgP _ two)))) (hf _ (hhP _ (hcP _ (hgP _ two))))
    · exact eitherOrder_holds (hgQ _ (hf _ (hcP _ (hhP _ two)))) (hf _ (hgP _ (hcP _ (hhP _ two))))

/-- R37: after a report PE holds the serial of an attached base, and none where no base is attached. -/
theorem bmReport_serial {m : List Part} (attach : Bool) {acts : State → State} (ha : ∀ v, Changes m v (acts v))
    (hm : ∀ p ∈ [Part.hingeBase, .bmState], p ∉ m) (s : State) :
    (bmReport attach acts s).pe.serial = heldSerial s ∧ (bmReport attach acts s).pe.offset = s.pe.offset := by
  let P : State → Prop := fun v => heldSerial v = heldSerial s ∧ v.pe.offset = s.pe.offset
  let Q : State → Prop := fun v => P v ∧ v.pe.serial = heldSerial s
  have keepsP : ∀ {n v w}, Changes n v w → (∀ p ∈ [Part.hingeBase, .bmState], p ∉ n) → P v → P w := fun c hn hv =>
    ⟨(heldSerial_of_changes c hn).1.trans hv.1, (heldSerial_of_changes c hn).2.trans hv.2⟩
  have keepsQ : ∀ {n v w}, Changes n v w → (∀ p ∈ [Part.hingeBase, .bmState], p ∉ n) → Q v → Q w := fun c hn hv =>
    ⟨keepsP c hn hv.1, (Prod.mk.inj (c.same .hingeBase (hn _ (by decide)))).1.trans hv.2⟩
  have reported : ∀ v, P v → Q (peBm v) := fun v hv =>
    ⟨⟨(peBm_heldSerial v).1.trans hv.1, (peBm_heldSerial v).2.trans hv.2⟩, (peBm_serial v).trans hv.1⟩
  have viewed : P (sfeView s) := keepsP (sfeView_changes s) (by decide) ⟨rfl, rfl⟩
  have done : Q (bmReport attach acts s) := by
    unfold bmReport
    dsimp only
    split
    · rename_i quiet
      obtain ⟨hpe, -, -⟩ := quiet
      refine keepsQ (ha _) hm ⟨viewed, Eq.trans ?_ viewed.1⟩
      simp only [peQuiet, Bool.and_eq_true, Bool.or_eq_true, Option.isNone_iff_eq_none] at hpe
      unfold heldSerial
      split
      · rfl
      · exact hpe.2.resolve_left ‹_›
    · exact anyOrder_turns (P := P) (Q := Q) (fun _ h => h) (fun _ h => h) reported
        (fun v => keepsP (spuBm_changes attach v) (by decide)) (fun v => keepsQ (spuBm_changes attach v) (by decide))
        (fun v => keepsP (ha v) hm) (fun v => keepsQ (ha v) hm) viewed
  exact ⟨done.2, done.1.2⟩

/-! ### The identity check (R66, R67) -/

/-- BM's record once an IDENT has answered its query (R66). -/
def Bm.identified (i : Identity) (b : Bm) : Bm := { b with queryOut := false, query := none, identity := some i }

/-- The base is identified, and BM has filed the claim of its draw (R66). -/
def identFiled (i : Identity) (s : State) : State := fileBase (drawClaim i) { s with bm := s.bm.identified i }

theorem identFiled_relayed (i : Identity) (s : State) :
    Relayed { s with bm := s.bm.identified i } (identFiled i s) := fileBase_relayed _ _

theorem takeIdent_eq (h : s.bm.state = .identifying ∧ s.bm.queryOut = true ∧ 1 ≤ i.revision ∧ i.revision ≤ 15) :
    takeIdent i s =
      if drawClaim i ≤ s.rba.capacity then identityCheck i (identFiled i s)
      else toPowering (drawClaim i) (identFiled i s) := by
  have granted : baseGranted (identFiled i s) = decide (drawClaim i ≤ s.rba.capacity) := baseGranted_fileBase _ _
  simp only [takeIdent, if_pos h]
  show (if baseGranted (identFiled i s) = true then _ else _) = _
  simp only [granted, decide_eq_true_eq]
  rfl

/-! ### Attachment (R69) -/

/-- BM's record on entry to ATTACHED, before its report (R69). -/
def Bm.attached (i : Identity) (b : Bm) : Bm :=
  { b with state := .attached, phase := none, stream := .running, active := some i.serial }

/-- BM's record and PE's serial and offset are written before BM reports (R69). -/
def attaching (i : Identity) (offset : Int) (s : State) : State :=
  peBase i.serial offset { s with bm := s.bm.attached i }

/-- BM's own acts at its report of an attachment (R69 steps 2 to 4). -/
def attachActs (i : Identity) (offset : Int) (s : State) : State := emitAttached i offset (startStream (breakBase s))

theorem toAttached_eq {offset : Int} (h : ((findEntry i.serial s.settings.table).map (·.offset)).getD 0 = offset) :
    toAttached i s = bmReport true (attachActs i offset) (attaching i offset s) := by
  subst h
  rfl

theorem attachActs_changes (i : Identity) (offset : Int) (s : State) :
    Changes ([.marks, .baseSamples, .late, .baseView, .locks, .freshness, .stream, .live, .btx] ++ viewParts) s
      (attachActs i offset s) :=
  (((breakBase_changes s).mono (by decide)).step (startStream_changes _) (by decide)).step (emitAttached_changes i offset _)
    (by decide)

theorem attachActs_broken (i : Identity) (offset : Int) (s : State) : Broken (attachActs i offset s) :=
  ((breakBase_broken s).through (startStream_changes _) (by decide)).through (emitAttached_changes i offset _) (by decide)

/-- The base stream of an attached base while the part stays ACTIVE (R10, R69). -/
def Streaming (sent : List BaseTx) (s : State) : Prop :=
  s.bm.stream = .running ∧ s.sfe.view = .running ∧ s.btx = sent

theorem Streaming.through {m : List Part} {sent : List BaseTx} (h : Streaming sent s) (c : Changes m s t)
    (hm : ∀ p ∈ [Part.stream, .baseView, .btx], p ∉ m) : Streaming sent t := by
  have stream : (t.bm.stream, t.bm.quiesce) = (s.bm.stream, s.bm.quiesce) := c.same .stream (hm _ (by decide))
  have view : t.sfe.view = s.sfe.view := c.same .baseView (hm _ (by decide))
  have btx : t.btx = s.btx := c.same .btx (hm _ (by decide))
  exact ⟨(Prod.mk.inj stream).1.trans h.1, view.trans h.2.1, btx.trans h.2.2⟩

theorem streaming_kept (sent : List BaseTx) : Kept fun v => Awake v ∧ Streaming sent v :=
  fun r h => ⟨r.awake h.1, h.2.through (r.calm (.inr h.1)) (by decide)⟩

/-- R69: with the part ACTIVE BM starts the stream with SET_PERIOD 20. -/
theorem attachActs_streaming (i : Identity) (offset : Int) {sent : List BaseTx} (h : Awake s) (hs : Streaming sent s) :
    Awake (attachActs i offset s) ∧ Streaming (sent ++ [.setPeriod 20]) (attachActs i offset s) := by
  obtain ⟨awake, streams⟩ := streaming_kept sent (breakBase_relayed s) ⟨h, hs⟩
  obtain ⟨stream, view, btx⟩ := streams
  have starts : startStream (breakBase s) = sendBase (.setPeriod 20) (breakBase s) := by
    rw [startStream, awake.2]
    rfl
  have emits := emitAttached_changes i offset (sendBase (.setPeriod 20) (breakBase s))
  unfold attachActs
  rw [starts]
  have host : (emitAttached i offset (sendBase (.setPeriod 20) (breakBase s))).spu.host = (breakBase s).spu.host :=
    emits.same .host (by decide)
  have mode : (emitAttached i offset (sendBase (.setPeriod 20) (breakBase s))).spu.mode = (breakBase s).spu.mode :=
    emits.same .mode (by decide)
  refine ⟨⟨host.trans awake.1, mode.trans awake.2⟩, ?_⟩
  exact Streaming.through (s := sendBase (.setPeriod 20) (breakBase s)) ⟨stream, view, congrArg (· ++ [_]) btx⟩ emits
    (by decide)

theorem sfeView_view (s : State) : (sfeView s).sfe.view = baseViewOf s.bm := by
  unfold sfeView
  dsimp only
  split <;> rfl

/-- R69: BASE_ATTACHED carries the marks of the entry (R68). -/
theorem emitAttached_waits {isNew : Bool} {evicted : Option Serial} (i : Identity) (offset : Int)
    (hn : s.bm.newEntry = isNew) (he : s.bm.evicted = evicted) (h : Taking .base s.lc) :
    Waits (.baseAttached i 1 offset isNew evicted) (emitAttached i offset s).lc := by
  subst hn he
  exact offer_waits rfl h

/-- R69: what an attachment leaves. -/
structure Attached (i : Identity) (offset : Int) (s t : State) : Prop where
  bm : t.bm.state = .attached ∧ t.bm.active = some i.serial ∧ t.bm.identity = s.bm.identity ∧ t.bm.phase = none ∧
    t.bm.queryOut = s.bm.queryOut
  pe : t.pe.serial = some i.serial ∧ t.pe.offset = offset
  broken : Broken t
  situation : t.pe.situation = if s.sfe.lid.level = .asserted then .lid else .none
  stream : Awake s → Streaming (s.btx ++ [.setPeriod 20]) t
  event : Taking .base s.lc → Waits (.baseAttached i 1 offset s.bm.newEntry s.bm.evicted) t.lc
  claims : t.rba = s.rba
  settings : t.settings = s.settings
  store : t.ss = s.ss

/-- No claim on PE's machines: what is left of `Stands` is the forcing situation of R35. -/
def situationLaw : LockLaw where
  holds _ _ := True
  blind _ _ _ _ := trivial
  loaded _ := trivial
  restarted _ := trivial
  broken _ := trivial
  recovered _ := trivial
  halted _ := trivial
  forced _ _ := trivial
  noticed _ _ := trivial
  retuned _ _ := trivial

/-- R35: an act of BM that ends with its report leaves the situation up to date. -/
theorem Settles.situation {f : State → State} (h : Settles situationLaw f) (s : State) :
    (f s).pe.situation = situationNow (f s) := (h (C := True) (s := s) (.stale trivial)).2 trivial

theorem toAttached_attached {offset : Int}
    (h : ((findEntry i.serial s.settings.table).map (·.offset)).getD 0 = offset) :
    Attached i offset s (toAttached i s) := by
  have situation : (toAttached i s).pe.situation = situationNow (toAttached i s) :=
    Settles.situation (toAttached_settles i) s
  have magnets : ((toAttached i s).sfe.lid, (toAttached i s).sfe.fold) = (s.sfe.lid, s.sfe.fold) :=
    (toAttached_changes i s).same .magnets (by decide)
  have marks_kept : Kept fun v => (v.bm.newEntry, v.bm.evicted) = (s.bm.newEntry, s.bm.evicted) := fun r hv => by
    have same : _ = _ := r.frame.same .marks (by decide)
    exact same.trans hv
  have claims : (toAttached i s).rba = s.rba := (toAttached_changes i s).rba_eq (by decide)
  have settings : (toAttached i s).settings = s.settings := (toAttached_changes i s).settings_eq (by decide)
  have store : (toAttached i s).ss = s.ss := (toAttached_changes i s).ss_eq (by decide)
  rw [toAttached_eq h] at *
  have frame := bmReport_changes (m := [.marks] ++ reportParts) (a := true) (by decide)
    (fun v => (attachActs_changes i offset v).mono (by decide)) (attaching i offset s)
  have state : (bmReport true (attachActs i offset) (attaching i offset s)).bm.state = .attached :=
    frame.same .bmState (by decide)
  have identify := frame.same .identify (by decide)
  simp only [Part.Same, Prod.mk.injEq] at identify
  obtain ⟨-, phase, -, queryOut, -, identity⟩ := identify
  have active : (bmReport true (attachActs i offset) (attaching i offset s)).bm.active = some i.serial :=
    frame.same .active (by decide)
  refine ⟨⟨state, active, identity, phase, queryOut⟩, ?_, ?_, ?_, fun awake => ?_, fun taking => ?_, claims, settings, store⟩
  · exact bmReport_serial true (attachActs_changes i offset) (by decide) (attaching i offset s)
  · exact bmReport_turns (P := fun _ => True) (fun _ _ => trivial) (fun r => r.broken) true
      (fun v _ => attachActs_broken i offset v) trivial
  · rw [situation, situationNow, state, (Prod.mk.inj magnets).1]
    rfl
  · have viewed : Awake (sfeView (attaching i offset s)) ∧ Streaming s.btx (sfeView (attaching i offset s)) := by
      have c := sfeView_changes (attaching i offset s)
      have host : (sfeView (attaching i offset s)).spu.host = s.spu.host := c.same .host (by decide)
      have mode : (sfeView (attaching i offset s)).spu.mode = s.spu.mode := c.same .mode (by decide)
      refine ⟨⟨host.trans awake.1, mode.trans awake.2⟩, ?_, sfeView_view _, c.same .btx (by decide)⟩
      rw [sfeView_bm]
      rfl
    exact (bmReport_turns (streaming_kept _) (streaming_kept _) true
      (fun v hv => attachActs_streaming i offset hv.1 hv.2) viewed).2
  · refine bmReport_waits marks_kept rfl true (fun v hv hv' => ?_) ?_ taking
    · have marks : ((startStream (breakBase v)).bm.newEntry, (startStream (breakBase v)).bm.evicted) =
          (s.bm.newEntry, s.bm.evicted) :=
        Eq.trans (((breakBase_changes v).mono (by decide)).step (startStream_changes _) (m := reportParts)
          (by decide) |>.same .marks (by decide)) hv
      have starts : Told (breakBase v).lc (startStream (breakBase v)).lc := .of_changes (startStream_changes _) (by decide)
      obtain ⟨isNew, evicted⟩ := Prod.mk.inj marks
      exact emitAttached_waits i offset isNew evicted (((breakBase_told v).trans starts).taking hv')
    · exact (sfeView_changes (attaching i offset s)).same .marks (by decide)

/-! ### What an IDENT comes to (R66 to R70) -/

theorem findEntry_serial {serial : Serial} {table : List BaseEntry} {e : BaseEntry}
    (h : findEntry serial table = some e) : e.serial = serial := by
  simpa using List.find?_some h

theorem findEntry_rankFirst (e : BaseEntry) (table : List BaseEntry) :
    findEntry e.serial (rankFirst e table) = some e := by
  simp [findEntry, rankFirst]

theorem dropEntry_of_unknown {serial : Serial} {table : List BaseEntry} (h : findEntry serial table = none) :
    dropEntry serial table = table := by
  refine List.filter_eq_self.mpr fun e he => ?_
  simpa [findEntry] using List.find?_eq_none.mp h e he

/-- R67, R69: a base that is in the table attaches with its entry at rank 1. -/
theorem identityCheck_known {e : BaseEntry} (h : findEntry i.serial s.settings.table = some e) :
    Attached i e.offset (setTable (rankFirst { e with model := i.model } s.settings.table) s) (identityCheck i s) := by
  unfold identityCheck
  rw [h]
  refine toAttached_attached ?_
  rw [setTable_table, ← findEntry_serial h, findEntry_rankFirst { e with model := i.model }]
  rfl

/-- R67, R68: under ACCEPT a new base is admitted with C = 0. -/
theorem identityCheck_admits (h : findEntry i.serial s.settings.table = none) (hp : s.settings.basePolicy = .accept) :
    Attached i 0 (createEntry i s) (identityCheck i s) := by
  unfold identityCheck
  rw [h, hp]
  refine toAttached_attached ?_
  rw [createEntry, setTable_table, show i.serial = (entryOf i).serial from rfl, findEntry_rankFirst]
  rfl

theorem identityCheck_refuses (h : findEntry i.serial s.settings.table = none) (hp : s.settings.basePolicy = .refuse) :
    identityCheck i s = toRefused i s := by
  unfold identityCheck
  rw [h, hp]

/-- R70: a refused base loses its power and its claim. -/
theorem toRefused_refused (i : Identity) (s : State) :
    (toRefused i s).bm = { s.bm with state := .refused, phase := none, bpwr := false } ∧
    (toRefused i s).rba.base = none ∧
    (Taking .base s.lc → Waits (.baseRefused i.serial i.model) (toRefused i s).lc) := by
  let refused : State := { s with bm := { s.bm with state := .refused, phase := none, bpwr := false } }
  have withdrawn : CalmAfter refused (withdrawBase refused) :=
    CalmAfter.relayed (Calm.after (.inl rfl)) (withdrawBase_relayed refused)
  have bm : (withdrawBase refused).bm = refused.bm := withdrawn.2.bm_eq (by decide)
  refine ⟨?_, ?_, fun taking => ?_⟩
  · have report := bmReport_baseAt_acts (acts := offer (.baseRefused i.serial i.model)) withdrawn.1 false fun v hcalm hv =>
      ⟨(offer_relayed _ v).isCalm hcalm, hv.through (offer_changes _ v) (by decide)⟩
    exact report.1.trans bm
  · have rba := (bmReport_changes (m := reportParts) (a := false) (by decide)
      (fun v => (offer_changes (.baseRefused i.serial i.model) v).mono (by decide)) (withdrawBase refused)).rba_eq (by decide)
    exact (congrArg Rba.base rba).trans (withdrawBase_claims refused).1
  · exact bmReport_waits (P := fun _ => True) (fun _ _ => trivial) rfl false (fun v _ => offer_waits rfl) trivial
      ((withdrawBase_relayed refused).told.taking taking)

/-- R66 to R69: what O32 says of a base that an IDENT attaches. -/
def IdentAttached (i : Identity) (offset : Int) (s t : State) : Prop :=
  t.bm.state = .attached ∧ t.bm.active = some i.serial ∧ t.bm.identity = some i ∧ t.bm.phase = none ∧
  t.bm.queryOut = false ∧ t.rba.base = some { requested := drawClaim i, minimum := drawClaim i } ∧
  t.pe.serial = some i.serial ∧ t.pe.offset = offset ∧ t.sfe.bFilter = none ∧ t.pe.fresh = false ∧
  t.pe.situation = (if s.sfe.lid.level = .asserted then .lid else .none) ∧
  (s.spu.host = .running → s.spu.mode = .active →
    t.bm.stream = .running ∧ t.sfe.view = .running ∧ t.btx = s.btx ++ [.setPeriod 20])

/-- R66: what BM has changed when it comes to the identity check. -/
theorem identFiled_changes (i : Identity) (s : State) :
    Changes ([.identify, .claims] ++ reportParts ++ noticeParts) s (identFiled i s) := by
  have asks : Changes [.identify] s { s with bm := s.bm.identified i } := by
    refine ⟨fun p hp => ?_⟩
    cases p <;> first | rfl | exact absurd (by decide) hp
  exact (asks.mono (by decide)).step (fileBase_changes _ _) (by decide)

theorem identFiled_settings (i : Identity) (s : State) : (identFiled i s).settings = s.settings :=
  (identFiled_changes i s).settings_eq (by decide)

theorem identFiled_calmAfter (h : s.bm.state = .identifying) :
    CalmAfter { s with bm := s.bm.identified i } (identFiled i s) := by
  refine CalmAfter.relayed (Calm.after (.inl ?_)) (identFiled_relayed i s)
  show BmState.hasBase s.bm.state = false
  rw [h]
  rfl

/-- R66 to R69: an attachment over the table as BM has written it. -/
theorem Attached.ident {offset : Int} (h : Attached i offset t u) (hs : s.bm.state = .identifying)
    (c : Changes [.table, .marks, .image, .commit] (identFiled i s) t) : IdentAttached i offset s u := by
  have filed := identFiled_calmAfter (i := i) hs
  have reached : Changes (calmParts ++ [.table, .marks, .image, .commit]) { s with bm := s.bm.identified i } t :=
    (filed.2.mono (by decide)).trans (c.mono (by decide))
  have identify : _ = _ := reached.same .identify (by decide)
  simp only [Prod.mk.injEq] at identify
  obtain ⟨-, -, -, queryOut, -, identity⟩ := identify
  have magnets : (t.sfe.lid, t.sfe.fold) = (s.sfe.lid, s.sfe.fold) := reached.same .magnets (by decide)
  have btx : t.btx = s.btx := reached.same .btx (by decide)
  have claim : t.rba.base = some { requested := drawClaim i, minimum := drawClaim i } :=
    (congrArg Rba.base (c.rba_eq (by decide))).trans (fileBase_claim _ _)
  obtain ⟨state, active, identity', phase, queryOut'⟩ := h.bm
  refine ⟨state, active, identity'.trans identity, phase, queryOut'.trans queryOut, h.claims ▸ claim, h.pe.1, h.pe.2,
    h.broken.1, h.broken.2, ?_, fun host mode => ?_⟩
  · rw [h.situation, (Prod.mk.inj magnets).1]
  · have awake : Awake (identFiled i s) := (identFiled_relayed i s).awake ⟨host, mode⟩
    have host' : t.spu.host = _ := c.same .host (by decide)
    have mode' : t.spu.mode = _ := c.same .mode (by decide)
    exact btx ▸ h.stream ⟨host'.trans awake.1, mode'.trans awake.2⟩

/-- R74, R195: a commit that writing the table has requested stands when the base has been attached. -/
theorem Attached.commitAsked {offset : Int} (h : Attached i offset t u) (hc : commitAsked (identFiled i s) t) :
    commitAsked s u :=
  commitAsked_congr hc ((identFiled_changes i s).ss_eq (by decide)).symm h.store h.settings

/-- R69: BASE_ATTACHED waits in the queue behind whatever was sent when the claim was filed. -/
theorem Attached.waits {offset : Int} (h : Attached i offset t u)
    (c : Changes [.table, .marks, .image, .commit] (identFiled i s) t) (taking : Taking .base s.lc) :
    Waits (.baseAttached i 1 offset t.bm.newEntry t.bm.evicted) u.lc :=
  h.event ((Told.trans (identFiled_relayed i s).told (.of_changes c (by decide))).taking taking)

section

variable (hi : s.bm.state = .identifying ∧ s.bm.queryOut = true ∧ 1 ≤ i.revision ∧ i.revision ≤ 15)

include hi

theorem takeIdent_granted (ha : drawClaim i ≤ s.rba.capacity) : takeIdent i s = identityCheck i (identFiled i s) := by
  rw [takeIdent_eq hi, if_pos ha]

/-- R67, R69: an IDENT of a base that is in the table. -/
theorem takeIdent_known {e : BaseEntry} (ha : drawClaim i ≤ s.rba.capacity)
    (known : findEntry i.serial s.settings.table = some e) :
    IdentAttached i e.offset s (takeIdent i s) ∧
    (takeIdent i s).settings.table = { e with model := i.model } :: others e.serial s ∧
    ((takeIdent i s).settings.table ≠ s.settings.table → commitAsked s (takeIdent i s)) ∧
    (Taking .base s.lc →
      Waits (.baseAttached i 1 e.offset s.bm.newEntry s.bm.evicted) (takeIdent i s).lc) := by
  have attached := identityCheck_known (s := identFiled i s) ((identFiled_settings i s).symm ▸ known)
  rw [← takeIdent_granted hi ha] at attached
  have c := (setTable_changes (rankFirst { e with model := i.model } (identFiled i s).settings.table) (identFiled i s)).mono
    (show _ ⊆ [Part.table, .marks, .image, .commit] by decide)
  have table : (takeIdent i s).settings.table = rankFirst { e with model := i.model } s.settings.table := by
    rw [attached.settings, setTable_table, identFiled_settings]
  have marks : ((identFiled i s).bm.newEntry, (identFiled i s).bm.evicted) = (s.bm.newEntry, s.bm.evicted) :=
    (identFiled_changes i s).same .marks (by decide)
  obtain ⟨isNew, evicted⟩ := Prod.mk.inj marks
  refine ⟨attached.ident hi.1 c, table, fun changed => attached.commitAsked (setTable_commitAsked ?_), fun taking => ?_⟩
  · rw [identFiled_settings]
    exact table ▸ changed
  · have waits := attached.waits c taking
    rwa [setTable_bm, isNew, evicted] at waits

/-- R68, R69: an IDENT of a new base under ACCEPT. -/
theorem takeIdent_admits (ha : drawClaim i ≤ s.rba.capacity) (unknown : findEntry i.serial s.settings.table = none)
    (hp : s.settings.basePolicy = .accept) :
    IdentAttached i 0 s (takeIdent i s) ∧
    (takeIdent i s).settings.table = entryOf i :: others i.serial s ∧ commitAsked s (takeIdent i s) ∧
    (Taking .base s.lc →
      Waits (.baseAttached i 1 0 true (s.settings.table[3]?.map (·.serial))) (takeIdent i s).lc) := by
  have attached := identityCheck_admits (s := identFiled i s) ((identFiled_settings i s).symm ▸ unknown)
    ((identFiled_settings i s).symm ▸ hp)
  rw [← takeIdent_granted hi ha] at attached
  have c := (createEntry_changes i (identFiled i s)).mono (show _ ⊆ [Part.table, .marks, .image, .commit] by decide)
  have table : (takeIdent i s).settings.table = rankFirst (entryOf i) s.settings.table := by
    rw [attached.settings, createEntry, setTable_table]
    exact congrArg (rankFirst (entryOf i)) (congrArg Settings.table (identFiled_settings i s))
  have evicts : evictedBy i.serial s.settings.table = s.settings.table[3]?.map (·.serial) := by
    rw [evictedBy, dropEntry_of_unknown unknown]
  have grows : rankFirst (entryOf i) s.settings.table ≠ s.settings.table := fun same => by
    have found := findEntry_rankFirst (entryOf i) s.settings.table
    rw [same] at found
    cases found.symm.trans unknown
  refine ⟨attached.ident hi.1 c, table, attached.commitAsked (createEntry_commitAsked ?_), fun taking => ?_⟩
  · rwa [identFiled_settings]
  · have waits := attached.waits c taking
    rwa [createEntry_bm, identFiled_settings, evicts] at waits

/-- R70: an IDENT of a new base under REFUSE. -/
theorem takeIdent_refuses (ha : drawClaim i ≤ s.rba.capacity) (unknown : findEntry i.serial s.settings.table = none)
    (hp : s.settings.basePolicy = .refuse) :
    (takeIdent i s).bm.state = .refused ∧ (takeIdent i s).bm.bpwr = false ∧ (takeIdent i s).bm.identity = some i ∧
    (takeIdent i s).bm.queryOut = false ∧ (takeIdent i s).rba.base = none ∧
    (Taking .base s.lc → Waits (.baseRefused i.serial i.model) (takeIdent i s).lc) ∧
    Changes ([.bmState, .identify, .claims] ++ reportParts ++ noticeParts) s (takeIdent i s) := by
  have refuses : takeIdent i s = toRefused i (identFiled i s) := by
    rw [takeIdent_granted hi ha]
    exact identityCheck_refuses ((identFiled_settings i s).symm ▸ unknown) ((identFiled_settings i s).symm ▸ hp)
  have filed : (identFiled i s).bm = s.bm.identified i := (identFiled_calmAfter hi.1).2.bm_eq (by decide)
  obtain ⟨bm, claim, event⟩ := toRefused_refused i (identFiled i s)
  rw [refuses, bm, filed]
  exact ⟨rfl, rfl, rfl, rfl, claim, fun taking => event ((identFiled_relayed i s).told.taking taking),
    ((identFiled_changes i s).mono (by decide)).step (toRefused_changes i _) (by decide)⟩

/-- R66: an IDENT whose draw the rail cannot give. -/
theorem takeIdent_waits (ha : s.rba.capacity < drawClaim i) :
    (takeIdent i s).bm.state = .powering ∧ (takeIdent i s).bm.bpwr = false ∧ (takeIdent i s).bm.identity = some i ∧
    (takeIdent i s).bm.queryOut = false ∧
    (takeIdent i s).rba.base = some { requested := drawClaim i, minimum := drawClaim i } ∧
    Changes ([.presence, .bmState, .identify, .claims] ++ reportParts ++ noticeParts) s (takeIdent i s) := by
  have powers : takeIdent i s = toPowering (drawClaim i) (identFiled i s) := by
    rw [takeIdent_eq hi, if_neg (Nat.not_le.mpr ha)]
  have filed : (identFiled i s).bm = s.bm.identified i := (identFiled_calmAfter hi.1).2.bm_eq (by decide)
  have capacity : (identFiled i s).rba.capacity = s.rba.capacity := (identFiled_changes i s).same .capacity (by decide)
  obtain ⟨bm, -, -⟩ := toPowering_ungranted (s := identFiled i s) (amount := drawClaim i) (capacity ▸ ha)
  rw [powers, bm, filed]
  exact ⟨rfl, rfl, rfl, rfl, (toPowering_rba _ _).1,
    ((identFiled_changes i s).mono (by decide)).step (toPowering_changes _ _) (by decide)⟩

end

/-- Settles O32: the claim decides between POWERING and the identity check, and the identity check between attachment,
admission and refusal. -/
theorem identTaken : Obligations.IdentTaken := by
  intro serial model draw revision s held
  let i : Identity := ⟨serial, model, draw, revision⟩
  have run : exec (.ident serial model draw revision) s = .next (takeIdent i s) :=
    congrArg Host.Outcome.next (whileRunning_running _ held)
  have frame : drawClaim i ≤ s.rba.capacity →
      s.bm.state = .identifying ∧ s.bm.queryOut = true ∧ 1 ≤ revision ∧ revision ≤ 15 →
      Changes ([.table, .bmState, .identify, .active, .marks, .claims, .image, .commit] ++ reportParts ++ noticeParts) s
        (takeIdent i s) := fun ha hi => by
    rw [takeIdent_granted (i := i) hi ha]
    exact ((identFiled_changes i s).mono (by decide)).step (identityCheck_changes i _) (by decide)
  rw [run]
  refine ⟨fun hi ha e known => ⟨_, rfl, ?_⟩, fun hi ha unknown hp => ⟨_, rfl, ?_⟩, fun hi ha unknown hp => ⟨_, rfl, ?_⟩,
    fun hi ha => ⟨_, rfl, takeIdent_waits (i := i) hi ha⟩, fun hi => congrArg _ (if_neg hi)⟩
  · obtain ⟨attached, table, commit, event⟩ := takeIdent_known (i := i) hi ha known
    exact ⟨attached, table, commit, fun htx hgrant => (event ⟨htx, hgrant⟩).queued, frame ha hi⟩
  · obtain ⟨attached, table, commit, event⟩ := takeIdent_admits (i := i) hi ha unknown hp
    exact ⟨attached, table, commit, fun htx hgrant => (event ⟨htx, hgrant⟩).queued, frame ha hi⟩
  · obtain ⟨state, bpwr, identity, queryOut, claim, event, changes⟩ := takeIdent_refuses (i := i) hi ha unknown hp
    exact ⟨state, bpwr, identity, queryOut, claim, fun htx hgrant => (event ⟨htx, hgrant⟩).queued, changes⟩

end Sys2Proof.Machine

/-!
Base-gone by BM's state (R61, R73, R95). Every way leads through ABSENT: BM's records take their values there, the claims
are withdrawn, a calm report follows, and an assertion of BPRES that stands is taken afresh.
-/
namespace Sys2Proof.Machine

open Sys2Proof.Claims

variable {s t u : State}

/-! ### The posture of a lost base (R35, R36) -/

/-- R36: with no base the posture machine is HELD at DETACHED, with no run. -/
def detachedLaw : LockLaw where
  holds _ p := p.situation = .noBase → p.posture = forcedLock .detached
  blind hp _ hs h := fun g => hp.trans (h (hs ▸ g))
  loaded _ := fun g => by cases g
  restarted _ := fun g => by cases g
  broken h := fun g => by
    have held := h g
    simp only [Pe.broken, held]
    rfl
  recovered h := fun g => by
    have held := h g
    simp only [Pe.recovered, Pe.broken, held]
    rfl
  halted h := fun g => by
    have held := h g
    simp only [Pe.halted, held]
    rfl
  forced {_ p} new h := fun g => by
    rw [Pe.force_situation] at g
    subst g
    unfold Pe.force
    split
    · exact h (Eq.symm ‹_›)
    · rfl
  noticed {t p} n h := fun g => by
    obtain ⟨posture, -, situation⟩ := Pe.postureSide_locks t n p
    have held := h (situation.symm.trans g)
    show (p.postureSide t n).posture = _
    rw [posture, held]
    cases (classifyPosture t (forcedLock Posture.detached).value p.offset n).1 <;> rfl
  retuned _ h := fun g => by
    have held := h g
    simp only [Pe.retuned, held, recount, noRun]
    split <;> rfl

/-- R35, R36: an act of BM's that leaves no hinge behind forces P to DETACHED, unless the lid is shut. -/
theorem Settles.detached {f : State → State} (h : Settles detachedLaw f) (hs : s.pe.situation = .none)
    (hlid : (f s).sfe.lid.level = .released) (hbase : BmState.hinged (f s).bm.state = false) :
    (f s).pe.situation = .noBase ∧
    (f s).pe.posture = { state := .held, value := .detached, pending := none, run := 0 } := by
  have loose : Stands detachedLaw False s := .stale fun g => by rw [hs] at g; cases g
  obtain ⟨law, situation⟩ := h (C := True) loose
  have now : (f s).pe.situation = .noBase := by
    rw [situation trivial, situationNow, hlid, hbase]
    rfl
  exact ⟨now, law now⟩

/-! ### BM's records after a base-gone -/

/-- BM's base record after a base-gone: that of a reset, and settling again where BPRES is asserted (R61). -/
def goneBm (bpres : Level) (now : Nat) : Bm :=
  match bpres with
  | .released => Bm.reset
  | .asserted => { Bm.reset with bpres := .asserted, state := .settling, settle := some (now + 100) }

theorem Bm.absent_eq (b : Bm) : b.absent = { Bm.reset with bpres := b.bpres } := rfl

/-- R61: an assertion of BPRES that stands in ABSENT is taken afresh. -/
theorem takeAfresh_gone {b : Bm} {sent : List BaseTx} {now : Nat} (h : BaseAt b.absent sent now s) :
    (takeAfresh s).bm = goneBm b.bpres now := by
  obtain ⟨bm, -, hnow⟩ := h
  subst hnow
  have hpres : s.bm.bpres = b.bpres := by rw [bm, Bm.absent_eq]
  unfold takeAfresh toSettling
  rw [hpres]
  cases hb : b.bpres with
  | released =>
    rw [if_neg (by simp), bm, Bm.absent_eq, hb]
    rfl
  | asserted =>
    rw [if_pos ⟨by rw [bm]; rfl, rfl⟩, bm, Bm.absent_eq, hb]
    rfl

theorem goneBm_unhinged (bpres : Level) (now : Nat) : BmState.hinged (goneBm bpres now).state = false := by
  cases bpres <;> rfl

/-- What a base-gone leaves when BM has reported the state `w`, in which its base record is that of ABSENT. -/
structure Gone (bpres : Level) (w t : State) : Prop where
  bm : t.bm = goneBm bpres w.now
  det : t.det = w.det
  rba : t.rba = w.rba
  serial : t.pe.serial = none

/-- What BM's own acts at the report of a base-gone may change: CM's rise and messages. -/
def toldParts : List Part := [.live, .latched, .history, .link, .queue, .choices]

/-- R61, R62: the report of a base-gone moves neither claim and leaves PE without a serial; then BPRES is taken afresh. -/
theorem report_gone {b : Bm} {acts : State → State} (ha : ∀ v, Changes toldParts v (acts v)) (h : s.bm = b.absent) :
    Gone b.bpres s (takeAfresh (bmReport false acts s)) := by
  have loose : ∀ {v : State}, v.bm = s.bm → Calm v := fun hv => .inl (by rw [hv, h]; rfl)
  have frame := bmReport_changes (m := [.latched, .history] ++ reportParts) (a := false) (by decide)
    (fun v => (ha v).mono (by decide)) s
  have base : BaseAt s.bm s.btx s.now (bmReport false acts s) := bmReport_baseAt_acts (loose rfl) false fun v _ hv =>
    have after := hv.through (ha v) (by decide)
    ⟨loose after.1, after⟩
  have serial : (bmReport false acts s).pe.serial = none := by
    rw [(bmReport_serial false ha (by decide) s).1, heldSerial, h]
    rfl
  have afresh := takeAfresh_changes (bmReport false acts s)
  exact ⟨takeAfresh_gone (h ▸ base), (afresh.det_eq (by decide)).trans (frame.det_eq (by decide)),
    (afresh.rba_eq (by decide)).trans (frame.rba_eq (by decide)),
    (Prod.mk.inj (afresh.same .hingeBase (by decide))).1.trans serial⟩

theorem Gone.state (g : Gone bpres s t) : BmState.hinged t.bm.state = false := by
  rw [g.bm]
  exact goneBm_unhinged _ _

/-! ### A base that is not yet attached, and a base loss (R61, R73) -/

/-- The state in which an undetached base has just gone: ABSENT is entered and the BASE claim is withdrawn. -/
def dropped (s : State) : State := withdrawBase (toAbsent s)

theorem dropped_calm (s : State) : CalmAfter (toAbsent s) (dropped s) :=
  (Calm.after (.inl rfl)).relayed (withdrawBase_relayed _)

theorem dropped_told (s : State) : Told s.lc (dropped s).lc := (withdrawBase_relayed (toAbsent s)).told

theorem dropped_bm (s : State) : (dropped s).bm = s.bm.absent := (dropped_calm s).2.bm_eq (by decide)

theorem dropped_cm (s : State) : (dropped s).cm = s.cm := (dropped_calm s).2.cm_eq (by decide)

/-- R61, R73: a base-gone outside a detach, with what BM does at its report. -/
theorem dropped_gone {acts : State → State} (ha : ∀ v, Changes toldParts v (acts v)) (s : State) :
    let t := takeAfresh (bmReport false acts (dropped s))
    t.bm = goneBm s.bm.bpres s.now ∧ t.det = s.det.idle ∧ t.rba.base = none ∧ t.pe.serial = none := by
  have g := report_gone ha (dropped_bm s)
  have now : (dropped s).now = s.now := (dropped_calm s).2.same .now (by decide)
  refine ⟨now ▸ g.bm, g.det.trans ((dropped_calm s).2.det_eq (by decide)), ?_, g.serial⟩
  rw [g.rba]
  exact (withdrawBase_claims _).1

/-- R65: BASE_ID_FAIL is not live after BM has dropped a base that had failed. -/
theorem attachAbandoned_clears (h : s.bm.state = .failed) :
    bitHas (attachAbandoned s).cm.live Cond.baseIdFail.idx = false := by
  let fallen := dropped (fall .baseIdFail s)
  have gone : attachAbandoned s = takeAfresh (bmReport false id fallen) := by
    unfold attachAbandoned
    rw [if_pos h]
    rfl
  have cleared : bitHas fallen.cm.live Cond.baseIdFail.idx = false := by
    rw [dropped_cm]
    exact bitHas_bitDrop_self _
  have report := bmReport_calm (dropped_calm _).1 false (s := fallen)
  rw [gone, (takeAfresh_changes _).cm_eq (by decide), report.2.cm_eq (by decide)]
  exact sfeView_live_clear cleared

theorem attachAbandoned_gone (s : State) :
    (attachAbandoned s).bm = goneBm s.bm.bpres s.now ∧ (attachAbandoned s).det = s.det.idle ∧
    (attachAbandoned s).rba.base = none := by
  have gone : ∀ v : State, v.bm = s.bm → v.det = s.det → v.now = s.now →
      (takeAfresh (bmReport false id (dropped v))).bm = goneBm s.bm.bpres s.now ∧
      (takeAfresh (bmReport false id (dropped v))).det = s.det.idle ∧
      (takeAfresh (bmReport false id (dropped v))).rba.base = none := fun v hbm hdet hnow => by
    obtain ⟨bm, det, base, -⟩ := dropped_gone (acts := id) (fun u => .refl _ u) v
    exact ⟨by rw [bm, hbm, hnow], by rw [det, hdet], base⟩
  unfold attachAbandoned
  by_cases failed : s.bm.state = .failed
  · rw [if_pos failed]
    exact gone (fall .baseIdFail s) rfl rfl rfl
  · rw [if_neg failed]
    exact gone s rfl rfl rfl

/-- What BM does at the report of a base loss: BASE_LOST is raised and told (R73). -/
def lossActs (serial : Option Serial) (s : State) : State := offer (.baseLost .presence serial) (rise .baseLost 1 s)

theorem baseLoss_eq (s : State) : baseLoss s = takeAfresh (bmReport false (lossActs s.bm.active) (dropped s)) := rfl

theorem lossActs_changes (serial : Option Serial) (s : State) : Changes toldParts s (lossActs serial s) :=
  ((rise_changes _ _ _).mono (by decide)).step (offer_changes _ _) (by decide)

theorem baseLoss_gone (s : State) :
    (baseLoss s).bm = goneBm s.bm.bpres s.now ∧ (baseLoss s).det = s.det.idle ∧ (baseLoss s).rba.base = none ∧
    (baseLoss s).pe.serial = none := dropped_gone (lossActs_changes _) s

theorem baseLoss_rose (s : State) : Rose .baseLost 1 s (baseLoss s) := by
  have report : Rose .baseLost 1 (dropped s) (bmReport false (lossActs s.bm.active) (dropped s)) :=
    bmReport_rose false (dropped_calm s).1 fun v hv _ =>
      have risen : Rose .baseLost 1 v (rise .baseLost 1 v) := rise_rose fun h => by cases h
      have told := offer_changes (.baseLost .presence s.bm.active) (rise .baseLost 1 v)
      ⟨(offer_relayed _ _).isCalm (rise_calm hv), risen.congr rfl rfl (told.cm_eq (by decide))⟩
  exact report.congr (by rw [dropped_cm]) (by rw [dropped_cm]) ((takeAfresh_changes _).cm_eq (by decide))

theorem baseLoss_queued (h : Taking .base s.lc) : Queued (.baseLost .presence s.bm.active) (baseLoss s) := by
  have waits : Waits (.baseLost .presence s.bm.active) (bmReport false (lossActs s.bm.active) (dropped s)).lc :=
    bmReport_waits (P := fun _ => True) (fun _ h => h) rfl false
      (fun v _ hv => offer_waits rfl ((rise_told .baseLost 1 v).taking hv)) trivial ((dropped_told s).taking h)
  rw [Queued, baseLoss_eq, (takeAfresh_changes _).lc_eq (by decide)]
  exact waits.queued

/-! ### A detach (R95) -/

/-- BM has withdrawn the LATCH claim and switched the base's supply off. -/
def unfed (s : State) : State :=
  let v := withdrawLatch { s with det := { s.det with lsol := false, timer := none } }
  { v with bm := { v.bm with bpwr := false } }

/-- The state in which a base has just been detached: BM has let the latch and the BASE claim go, and ABSENT is entered. -/
def detachedBase (s : State) : State :=
  let w := withdrawBase (unfed s)
  { w with det := { w.det.idle with outcome := some .detached }, bm := w.bm.absent }

/-- What BM does at the report of a detach: DETACH_RESULT goes before BASE_DETACHED (R95, R98). -/
def detachActs (serial : Option Serial) (s : State) : State := offer (.baseDetached serial) (offerResult .detached serial s)

theorem baseDetach_eq (s : State) :
    baseDetach s = takeAfresh (bmReport false (detachActs s.bm.active) (detachedBase s)) := rfl

theorem detachActs_changes (serial : Option Serial) (s : State) : Changes toldParts s (detachActs serial s) :=
  ((offer_changes _ _).mono (by decide)).step (offer_changes _ _) (by decide)

theorem detachedBase_told (s : State) : Told s.lc (detachedBase s).lc :=
  have latch : Told s.lc (unfed s).lc :=
    (withdrawLatch_relayed { s with det := { s.det with lsol := false, timer := none } }).told
  latch.trans (withdrawBase_relayed (unfed s)).told

/-- What the withdrawal of the two claims leaves of BM's, RBA's and the detach records. -/
theorem detachedBase_records (s : State) :
    (detachedBase s).bm = s.bm.absent ∧ (detachedBase s).now = s.now ∧
    (detachedBase s).det = { s.det.idle with outcome := some .detached } ∧
    (detachedBase s).rba.base = none ∧ (detachedBase s).rba.latch = none := by
  let x : State := { s with det := { s.det with lsol := false, timer := none } }
  have latch : Changes relayParts x (withdrawLatch x) := (withdrawLatch_relayed x).frame
  have base : Changes relayParts (unfed s) (withdrawBase (unfed s)) := (withdrawBase_relayed _).frame
  have now : (withdrawBase (unfed s)).now = s.now := Eq.trans (base.same .now (by decide)) (latch.same .now (by decide))
  have bpres : (withdrawBase (unfed s)).bm.bpres = s.bm.bpres :=
    (Prod.mk.inj (base.same .presence (by decide))).1.trans (Prod.mk.inj (latch.same .presence (by decide))).1
  have det : (withdrawBase (unfed s)).det = x.det := (base.det_eq (by decide)).trans (latch.det_eq (by decide))
  obtain ⟨baseGone, latchSame⟩ := withdrawBase_claims (unfed s)
  refine ⟨?_, now, ?_, baseGone, latchSame.trans (withdrawLatch_claims x).1⟩
  · show (withdrawBase (unfed s)).bm.absent = _
    rw [Bm.absent_eq, bpres, ← Bm.absent_eq]
  · show { (withdrawBase (unfed s)).det.idle with outcome := some DetachOutcome.detached } = _
    rw [det]
    rfl

theorem baseDetach_gone (s : State) :
    (baseDetach s).bm = goneBm s.bm.bpres s.now ∧
    (baseDetach s).det = { s.det.idle with outcome := some .detached } ∧ (baseDetach s).rba.base = none ∧
    (baseDetach s).rba.latch = none ∧ (baseDetach s).pe.serial = none := by
  obtain ⟨bm, now, det, base, latch⟩ := detachedBase_records s
  have g := report_gone (detachActs_changes s.bm.active) bm
  rw [← baseDetach_eq] at g
  refine ⟨now ▸ g.bm, g.det.trans det, ?_, ?_, g.serial⟩ <;> rw [g.rba] <;> assumption

/-- R95, R98: both events wait where LC takes their class, in the order in which BM tells them. -/
theorem baseDetach_queued {e : Event} (occurs : e.kind.isState = false) (s : State)
    (ha : ∀ v, v.det = (detachedBase s).det → Taking e.kind.cls v.lc → Waits e (detachActs s.bm.active v).lc)
    (h : Taking e.kind.cls s.lc) : Queued e (baseDetach s) := by
  have waits : Waits e (bmReport false (detachActs s.bm.active) (detachedBase s)).lc :=
    bmReport_waits (P := fun v => v.det = (detachedBase s).det) (fun r hv => (r.frame.det_eq (by decide)).trans hv)
      occurs false ha ((sfeView_changes _).det_eq (by decide)) ((detachedBase_told s).taking h)
  rw [Queued, baseDetach_eq, (takeAfresh_changes _).lc_eq (by decide)]
  exact waits.queued

theorem baseDetach_tells (s : State) :
    (Taking .detach s.lc → Queued (.detachResult .detached s.det.origin s.det.path s.bm.active) (baseDetach s)) ∧
    (Taking .base s.lc → Queued (.baseDetached s.bm.active) (baseDetach s)) := by
  obtain ⟨-, -, det, -, -⟩ := detachedBase_records s
  constructor
  · refine baseDetach_queued (e := .detachResult .detached s.det.origin s.det.path s.bm.active) rfl s fun v hv ht => ?_
    have event : offerResult .detached s.bm.active v =
        offer (.detachResult .detached s.det.origin s.det.path s.bm.active) v := by
      rw [offerResult, hv, det]
      rfl
    rw [detachActs, event]
    exact offer_keeps_waiting rfl _ (offer_waits rfl ht)
  · exact baseDetach_queued (e := .baseDetached s.bm.active) rfl s fun v _ ht =>
      offer_waits rfl ((offer_told _ v).taking ht)

/-! ### The loss time (R61) -/

/-- The loss timer's expiry hands the base-gone to BM, whose loss timer is off. -/
def atLoss (d : Nat) (s : State) : State := { runTo d s with bm := { s.bm with loss := none } }

theorem exec_baseGone {d : Nat} (held : s.held = none) (h : s.bm.loss = some d) :
    exec .baseGone s = .next (baseIsGone (atLoss d s)) :=
  congrArg Host.Outcome.next
    (expiry_running (fun v => v.bm.loss) (fun v => baseIsGone { v with bm := { v.bm with loss := none } }) held h)

theorem atLoss_changes (d : Nat) (s : State) : Changes [.now, .charging, .presence] s (atLoss d s) :=
  ((runTo_changes d s).mono (by decide)).trans (by
    refine ⟨fun p hp => ?_⟩
    cases p <;> first | rfl | exact absurd (by decide) hp)

/-- Settles O33, way by way of `baseIsGone`. -/
theorem baseGoneByState : Obligations.BaseGoneByState := by
  intro d s held loss
  dsimp only
  rw [exec_baseGone held loss]
  have record : goneBm s.bm.bpres (runTo d s).now =
      (match s.bm.bpres with
        | .released => Bm.reset
        | .asserted =>
          { Bm.reset with bpres := .asserted, state := .settling, settle := some ((runTo d s).now + 100) }) := by
    cases s.bm.bpres <;> rfl
  have start := atLoss_changes d s
  refine ⟨fun hs => ?_, fun hs => ?_, fun hs => ?_, fun hs => ?_⟩
  · have gone : baseIsGone (atLoss d s) = atLoss d s := by
      unfold baseIsGone
      rcases hs with hs | hs <;> simp only [atLoss, hs]
    rw [gone]
    rfl
  · have gone : baseIsGone (atLoss d s) = attachAbandoned (atLoss d s) := by
      unfold baseIsGone
      rcases hs with hs | hs | hs | hs <;> simp only [atLoss, hs]
    obtain ⟨bm, det, base⟩ := attachAbandoned_gone (atLoss d s)
    rw [gone]
    exact ⟨_, rfl, bm.trans record, det, base, fun failed => attachAbandoned_clears failed,
      (start.mono (by decide)).step (attachAbandoned_changes _) (by decide)⟩
  · have gone : baseIsGone (atLoss d s) = baseLoss (atLoss d s) := by
      unfold baseIsGone
      rcases hs with hs | hs <;> simp only [atLoss, hs]
    obtain ⟨bm, det, base, serial⟩ := baseLoss_gone (atLoss d s)
    have frame := baseLoss_changes (atLoss d s)
    rw [gone]
    refine ⟨_, rfl, bm.trans record, det, base, serial, fun hsit hlid => ?_, (baseLoss_rose _).congr rfl rfl rfl,
      fun tx grant => baseLoss_queued ⟨tx, grant⟩, (start.mono (by decide)).step frame (by decide)⟩
    refine Settles.detached baseLoss_settles (s := atLoss d s) hsit ?_ (by rw [bm]; exact goneBm_unhinged _ _)
    rw [(Prod.mk.inj (frame.same .magnets (by decide))).1]
    exact hlid
  · have gone : baseIsGone (atLoss d s) = baseDetach (atLoss d s) := by
      unfold baseIsGone
      rcases hs with hs | hs <;> simp only [atLoss, hs]
    obtain ⟨bm, det, base, latch, serial⟩ := baseDetach_gone (atLoss d s)
    obtain ⟨result, detached⟩ := baseDetach_tells (atLoss d s)
    have frame := baseDetach_changes (atLoss d s)
    rw [gone]
    refine ⟨_, rfl, bm.trans record, det, base, latch, serial, fun hsit hlid => ?_, fun tx grant => result ⟨tx, grant⟩,
      fun tx grant => detached ⟨tx, grant⟩, (start.mono (by decide)).step frame (by decide)⟩
    refine Settles.detached baseDetach_settles (s := atLoss d s) hsit ?_ (by rw [bm]; exact goneBm_unhinged _ _)
    rw [(Prod.mk.inj (frame.same .magnets (by decide))).1]
    exact hlid

end Sys2Proof.Machine

/-!
The paired-base table at the requests of R76 to R78: a new table with its commit, the active base's new offset with its
discontinuity, and the race of the owner's reply with the two.
-/
namespace Sys2Proof.Machine

open Sys2Proof.Claims

variable {place : Nat} {kind : ReqKind} {tag : Byte} {r : Reply} {s t u : State} {table : List BaseEntry} {offset : Int}

/-! ### What the two changes leave -/

/-- The table has become `table` between `s` and `t`; a change has requested a commit (R74). -/
structure Tabled (table : List BaseEntry) (s t : State) : Prop where
  written : t.settings.table = table
  commit : table ≠ s.settings.table → commitAsked s t

/-- The parts that a table and its commit are made of. -/
def storeParts : List Part := settingsParts ++ ssParts

theorem Tabled.through {m : List Part} (h : Tabled table s t) (c : Changes m t u) (hm : ∀ p ∈ storeParts, p ∉ m) :
    Tabled table s u := by
  have settings : u.settings = t.settings := c.settings_eq fun p hp => hm p (List.mem_append_left _ hp)
  have ss : u.ss = t.ss := c.ss_eq fun p hp => hm p (List.mem_append_right _ hp)
  exact ⟨by rw [settings, h.written], fun new => commitAsked_congr (h.commit new) rfl ss settings⟩

theorem Tabled.from {m : List Part} (h : Tabled table t u) (c : Changes m s t) (hm : ∀ p ∈ storeParts, p ∉ m) :
    Tabled table s u := by
  have settings : t.settings = s.settings := c.settings_eq fun p hp => hm p (List.mem_append_left _ hp)
  have ss : t.ss = s.ss := c.ss_eq fun p hp => hm p (List.mem_append_right _ hp)
  exact ⟨h.written, fun new => commitAsked_congr (h.commit (settings ▸ new)) ss.symm rfl rfl⟩

theorem Tabled.changed (h : Tabled table s t) : t.settings.table ≠ s.settings.table → commitAsked s t := by
  rw [h.written]
  exact h.commit

theorem setTable_tabled (table : List BaseEntry) (s : State) : Tabled table s (setTable table s) :=
  ⟨setTable_table _ _, setTable_commitAsked⟩

/-- R14, R29: PE has taken a new offset of the active base, and the base filter has broken. -/
structure Moved (offset : Int) (t : State) : Prop where
  offset : t.pe.offset = offset
  broken : Broken t
  current : t.pe.thetaCurrent = false

/-- The parts that the offset and its discontinuity are made of. -/
def breakParts : List Part := [.hingeBase, .baseSamples, .freshness]

theorem Moved.through {m : List Part} (h : Moved offset t) (c : Changes m t u) (hm : ∀ p ∈ breakParts, p ∉ m) :
    Moved offset u := by
  obtain ⟨-, offset⟩ := Prod.mk.inj (c.same .hingeBase (hm _ (by decide)))
  obtain ⟨-, tail⟩ := Prod.mk.inj (c.same .freshness (hm _ (by decide)))
  obtain ⟨-, current⟩ := Prod.mk.inj tail
  exact ⟨offset.trans h.offset, h.broken.through c fun p hp => hm p (List.mem_cons_of_mem _ hp), current.trans h.current⟩

theorem settled_hinge (old p : Pe) : (settled old p).offset = p.offset ∧ (settled old p).thetaCurrent = p.thetaCurrent := by
  unfold settled
  dsimp only
  split <;> exact ⟨rfl, rfl⟩

theorem breakBase_moved (s : State) : Moved s.pe.offset (breakBase s) := by
  have pe : (breakBase s).pe = settled s.pe s.pe.broken := peStep_pe spuView_pe _ _
  obtain ⟨offset, current⟩ := settled_hinge s.pe s.pe.broken
  exact ⟨by rw [pe, offset]; rfl, breakBase_broken s, by rw [pe, current]; rfl⟩

theorem activeOffset_moved (offset : Int) (s : State) : Moved offset (activeOffset offset s) :=
  breakBase_moved (peOffset offset s)

theorem activeOffset_told (offset : Int) (s : State) : Told s.lc (activeOffset offset s).lc :=
  breakBase_told (peOffset offset s)

theorem setTable_lc (table : List BaseEntry) (s : State) : (setTable table s).lc = s.lc :=
  (setTable_changes table s).lc_eq (by decide)

/-- A table written for a base and, where the base is the active one, its new offset taken by PE. -/
theorem activeOffset_tabled (h : Tabled table s t) (offset : Int) : Tabled table s (activeOffset offset t) :=
  h.through (activeOffset_changes offset t) (by decide)

/-! ### The owner's reply and the change (R181) -/

/-- What the taking of a request and its reply may change. -/
def repliedParts : List Part := [.assembler, .link, .queue, .choices]

/-- R181: a change races with its reply to LC; what it leaves beside LC does not depend on which of them is first. -/
theorem raced_request {act : State → State} {P : State → Prop} (h : Ready kind s) (p : List Byte)
    (told : ∀ v, Told v.lc (act v).lc) (keeps : ∀ {v w}, Changes repliedParts v w → P v → P w)
    (ha : ∀ v, Changes repliedParts s v → P (act v)) :
    let t := raceLc (answer (freePlace s.lc.slots) r) act (inSlot kind tag p .taken s)
    Answered kind tag r t ∧ P t := by
  obtain ⟨-, -, free, -, -⟩ := h
  refine ⟨raceLc_answered told (inSlot_takenIn kind tag p free), ?_⟩
  have taken : Changes repliedParts s (inSlot kind tag p .taken s) := (inSlot_changes kind tag p .taken s).mono (by decide)
  have chosen : ∀ v : State, Changes repliedParts v v.nextChoice := fun v => (nextChoice_changes v).mono (by decide)
  have answers : ∀ v : State, Changes repliedParts v (answer (freePlace s.lc.slots) r v) := fun v =>
    (answer_changes _ r v).mono (by decide)
  rcases raceLc_cases (answer (freePlace s.lc.slots) r) act (inSlot kind tag p .taken s) with e | e | e <;> rw [e]
  · exact keeps (answers _) (ha _ taken)
  · exact ha _ ((taken.trans (chosen _)).trans (answers _))
  · exact keeps (answers _) (ha _ (taken.trans (chosen _)))

/-- R181: a change that tells LC nothing is made before its reply. -/
theorem raceLc_silent {emit act : State → State} (h : (act s).lc = s.lc) : raceLc emit act s = emit (act s) := if_pos h

/-! ### An offset written into an entry (R77, R78) -/

/-- The entry of `e` has taken the offset `c`, and PE with it where the base is the active one; the same offset does
nothing. -/
structure OffsetPut (e : BaseEntry) (c : Int) (s t : State) : Prop where
  same : c = e.offset → t.settings.table = s.settings.table
  tabled : c ≠ e.offset → Tabled (writeOffset e.serial c s.settings.table) s t
  moved : c ≠ e.offset → s.bm.active = some e.serial → Moved c t

theorem OffsetPut.through {e : BaseEntry} {c : Int} (h : OffsetPut e c s t) (g : Changes repliedParts t u) :
    OffsetPut e c s u :=
  ⟨fun old => Eq.trans (g.same .table (by decide)) (h.same old), fun new => (h.tabled new).through g (by decide),
    fun new active => (h.moved new active).through g (by decide)⟩

theorem OffsetPut.changed {e : BaseEntry} {c : Int} (h : OffsetPut e c s t) :
    t.settings.table ≠ s.settings.table → commitAsked s t := fun differs => by
  by_cases hc : c = e.offset
  · exact absurd (h.same hc) differs
  · exact (h.tabled hc).changed differs

theorem putOffset_same {e : BaseEntry} {c : Int} (h : c = e.offset) : putOffset e c s = s := if_pos h

theorem putOffset_active {e : BaseEntry} {c : Int} (h : c ≠ e.offset) (ha : s.bm.active = some e.serial) :
    putOffset e c s = activeOffset c (setTable (writeOffset e.serial c s.settings.table) s) := by
  simp only [putOffset, if_neg h, setTable_bm, if_pos ha]

theorem putOffset_other {e : BaseEntry} {c : Int} (h : c ≠ e.offset) (ha : s.bm.active ≠ some e.serial) :
    putOffset e c s = setTable (writeOffset e.serial c s.settings.table) s := by
  simp only [putOffset, if_neg h, setTable_bm, if_neg ha]

theorem putOffset_put (e : BaseEntry) (c : Int) (s : State) : OffsetPut e c s (putOffset e c s) := by
  have written := setTable_tabled (writeOffset e.serial c s.settings.table) s
  refine ⟨fun old => by rw [putOffset_same old], fun new => ?_, fun new active => ?_⟩
  · by_cases active : s.bm.active = some e.serial
    · rw [putOffset_active new active]
      exact activeOffset_tabled written c
    · rwa [putOffset_other new active]
  · rw [putOffset_active new active]
    exact activeOffset_moved _ _

theorem putOffset_told (e : BaseEntry) (c : Int) (s : State) : Told s.lc (putOffset e c s).lc := by
  have written : Told s.lc (setTable (writeOffset e.serial c s.settings.table) s).lc := .of_eq (setTable_lc _ _)
  by_cases old : c = e.offset
  · rw [putOffset_same old]
    exact .refl _
  · by_cases active : s.bm.active = some e.serial
    · rw [putOffset_active old active]
      exact written.trans (activeOffset_told _ _)
    · rwa [putOffset_other old active]

/-- R77, R78: a request that writes an offset answers and writes it. -/
theorem offset_request {e : BaseEntry} {c : Int} (h : Ready kind s) (p : List Byte) :
    let t := raceLc (answer (freePlace s.lc.slots) r) (putOffset e c) (inSlot kind tag p .taken s)
    Answered kind tag r t ∧ OffsetPut e c s t := by
  refine raced_request h p (putOffset_told e c) (fun g put => put.through g) fun v g => ?_
  have put := putOffset_put e c v
  have table : v.settings.table = s.settings.table := g.same .table (by decide)
  have active : v.bm.active = s.bm.active := g.same .active (by decide)
  refine ⟨fun old => (put.same old).trans table, fun new => ?_, fun new hs => put.moved new (active.trans hs)⟩
  rw [← table]
  exact (put.tabled new).from g (by decide)

/-- R74: an entry of the table that takes another offset changes the table. -/
theorem writeOffset_changes {e : BaseEntry} {c : Int} (hmem : e ∈ table) (h : c ≠ e.offset) :
    writeOffset e.serial c table ≠ table := fun same => by
  have kept : table.map (fun x => if x.serial = e.serial then { x with offset := c } else x) = table.map id := by
    rw [List.map_id]
    exact same
  have image := List.map_inj_left.mp kept e hmem
  rw [if_pos rfl] at image
  exact h (congrArg BaseEntry.offset image)

end Sys2Proof.Machine

/-!
FORGET_BASE and SET_BASE_OFFSET (R76, R77): each finds its entry or answers without one, then changes the table, and PE's
offset with it where the entry is the active base's.
-/
namespace Sys2Proof.Machine

open Sys2Proof.Claims

variable {place : Nat} {tag : Byte} {s t u : State} {payload : List Byte} {e : BaseEntry}

/-- What a request that changes the table may change. -/
def tableParts : List Part := [.table, .image, .commit, .assembler, .link, .queue]

/-- What it may change beside that where the entry is the active base's. -/
def activeParts : List Part := [.baseSamples, .locks, .freshness, .hingeBase] ++ viewParts

/-! ### FORGET_BASE (R76) -/

/-- What FORGET_BASE does with the entry it has found (R76). -/
def forget (e : BaseEntry) (s : State) : State :=
  if s.bm.active = some e.serial then forgetActive e s else setTable (dropEntry e.serial s.settings.table) s

theorem serveForgetBase_unknown (h : findEntry (u48 payload 0) s.settings.table = none) :
    serveForgetBase place payload s = answer place (Reply.code .badValue) s := by
  simp only [serveForgetBase, h]

theorem serveForgetBase_known (h : findEntry (u48 payload 0) s.settings.table = some e) :
    serveForgetBase place payload s = raceLc (answer place (Reply.ok .none)) (forget e) s := by
  simp only [serveForgetBase, h]
  rfl

/-- The entry with which the active base stays in the table (R76). -/
def freshEntry (e : BaseEntry) (s : State) : BaseEntry :=
  { serial := e.serial, model := (s.bm.identity.map (·.model)).getD e.model, offset := 0 }

theorem forgetActive_tabled (e : BaseEntry) (s : State) :
    Tabled (rankFirst (freshEntry e s) s.settings.table) s (forgetActive e s) := by
  have written := setTable_tabled (rankFirst (freshEntry e s) s.settings.table) s
  unfold forgetActive
  dsimp only
  split
  · exact written
  · exact activeOffset_tabled written 0

theorem forgetActive_moved (s : State) (h : e.offset ≠ 0) : Moved 0 (forgetActive e s) := by
  unfold forgetActive
  dsimp only
  rw [if_neg h]
  exact activeOffset_moved 0 _

theorem forgetActive_told (e : BaseEntry) (s : State) : Told s.lc (forgetActive e s).lc := by
  have written : Told s.lc (setTable (rankFirst (freshEntry e s) s.settings.table) s).lc := .of_eq (setTable_lc _ _)
  unfold forgetActive
  dsimp only
  split
  · exact written
  · exact written.trans (activeOffset_told _ _)

theorem forget_told (e : BaseEntry) (s : State) : Told s.lc (forget e s).lc := by
  unfold forget
  split
  · exact forgetActive_told e s
  · exact .of_eq (setTable_lc _ _)

/-- The entry of `e` has gone from the table, or that of the active base has been created anew (R76). -/
structure Forgotten (e : BaseEntry) (s t : State) : Prop where
  other : s.bm.active ≠ some e.serial → Tabled (dropEntry e.serial s.settings.table) s t
  active : s.bm.active = some e.serial → Tabled (rankFirst (freshEntry e s) s.settings.table) s t
  moved : s.bm.active = some e.serial → e.offset ≠ 0 → Moved 0 t

theorem Forgotten.through (h : Forgotten e s t) (g : Changes repliedParts t u) : Forgotten e s u :=
  ⟨fun ha => (h.other ha).through g (by decide), fun ha => (h.active ha).through g (by decide),
    fun ha ho => (h.moved ha ho).through g (by decide)⟩

theorem forget_forgotten {m : List Part} (e : BaseEntry) (c : Changes m s t) (hm : ∀ p ∈ storeParts ++ bmParts, p ∉ m) :
    Forgotten e s (forget e t) := by
  have store : ∀ p ∈ storeParts, p ∉ m := fun p hp => hm p (List.mem_append_left _ hp)
  have bm : t.bm = s.bm := c.bm_eq fun p hp => hm p (List.mem_append_right _ hp)
  have settings : t.settings = s.settings := c.settings_eq fun p hp => store p (List.mem_append_left _ hp)
  have entry : freshEntry e t = freshEntry e s := by rw [freshEntry, bm, freshEntry]
  unfold forget
  rw [bm]
  refine ⟨fun ha => ?_, fun ha => ?_, fun ha ho => ?_⟩
  · rw [if_neg ha, settings]
    exact (setTable_tabled _ t).from c store
  · rw [if_pos ha, ← entry, ← settings]
    exact (forgetActive_tabled e t).from c store
  · rw [if_pos ha]
    exact forgetActive_moved t ho

/-- R76: a request that names an entry of the table. -/
theorem forgetBase_known {ser : List Byte} (h : Ready .forgetBase s) (hl : ser.length = 6)
    (he : findEntry (u48 ser 0) s.settings.table = some e) :
    ∃ t, exec (.forgetBase tag ser) s = .next t ∧
      Answered .forgetBase tag { result := .ok, content := .none } t ∧ Forgotten e s t ∧
      Changes (tableParts ++ activeParts) s t ∧
      (s.bm.active ≠ some e.serial → Changes tableParts s t) := by
  let place := freePlace s.lc.slots
  let taken := inSlot .forgetBase tag ser .taken s
  have start : Changes [.assembler, .link] s taken := inSlot_changes .forgetBase tag ser .taken s
  have served : serveForgetBase place ser taken = raceLc (answer place (Reply.ok .none)) (forget e) taken :=
    serveForgetBase_known he
  obtain ⟨answered, forgotten⟩ := raced_request (kind := .forgetBase) (tag := tag) (r := Reply.ok .none) h ser
    (forget_told e) (fun g hv => hv.through g) fun v g => forget_forgotten e g (by decide)
  refine ⟨serveForgetBase place ser taken, exec_request_ready h hl, served ▸ answered, served ▸ forgotten,
    (start.mono (by decide)).step (serveForgetBase_changes _ _ _) (by decide), fun other => ?_⟩
  have act : forget e taken = setTable (dropEntry e.serial taken.settings.table) taken := if_neg other
  rw [served, raceLc_silent (by rw [act]; exact setTable_lc _ _), act]
  exact (((start.mono (by decide)).step (setTable_changes _ _) (by decide)).step (answer_changes _ _ _) (by decide))

/-! ### SET_BASE_OFFSET (R77) -/

theorem serveSetBaseOffset_refused {code : Result} (h : offsetTarget payload s = .inl code) :
    serveSetBaseOffset place payload s = answer place (Reply.code code) s := by
  simp only [serveSetBaseOffset, h]

theorem serveSetBaseOffset_found (h : offsetTarget payload s = .inr e) :
    serveSetBaseOffset place payload s =
      raceLc
        (answer place (Reply.clamped (decide (clampInt (-720) 720 (s16 payload 7) ≠ s16 payload 7))
          (.entry { e with offset := clampInt (-720) 720 (s16 payload 7) } (rankOf e.serial s.settings.table))))
        (putOffset e (clampInt (-720) 720 (s16 payload 7))) s := by
  simp only [serveSetBaseOffset, h]

/-- The entry that SET_BASE_OFFSET speaks of: of the serial it carries, or of the active base (R77). -/
def offsetEntry (which : Byte) (serial : Serial) (s : State) : Option BaseEntry :=
  if which = 0#8 then findEntry serial s.settings.table
  else s.bm.active.bind fun a => findEntry a s.settings.table

theorem offsetTarget_serial (h : u8 payload 0 = 0) :
    offsetTarget payload s = (findEntry (u48 payload 1) s.settings.table).elim (.inl .badValue) .inr := by
  unfold offsetTarget
  rw [h]
  cases findEntry (u48 payload 1) s.settings.table <;> rfl

theorem offsetTarget_active (h : u8 payload 0 = 1) :
    offsetTarget payload s =
      s.bm.active.elim (.inl .wrongState) fun a => (findEntry a s.settings.table).elim (.inl .badValue) .inr := by
  unfold offsetTarget
  rw [h]
  cases s.bm.active with
  | none => rfl
  | some a => dsimp only [Option.elim]; cases findEntry a s.settings.table <;> rfl

theorem offsetTarget_bad (h : 1 < u8 payload 0) : offsetTarget payload s = .inl .badValue := by
  obtain ⟨n, hn⟩ : ∃ n, u8 payload 0 = n + 2 := ⟨u8 payload 0 - 2, by omega⟩
  unfold offsetTarget
  rw [hn]
  rfl

theorem offsetTarget_found {which : Byte} {serial : Serial} (hw : which.toNat ≤ 1) (hu : u8 payload 0 = which.toNat)
    (hs : u48 payload 1 = serial) (he : offsetEntry which serial s = some e) : offsetTarget payload s = .inr e := by
  unfold offsetEntry at he
  split at he
  · rw [offsetTarget_serial (by rw [hu]; simp [*]), hs, he]
    rfl
  · have one : which.toNat = 1 := by bv_omega
    obtain ⟨a, active, found⟩ := Option.bind_eq_some_iff.mp he
    rw [offsetTarget_active (hu.trans one), active]
    simp only [Option.elim, found]

/-- 4.6: the rank of an entry is its place in the table, from 1. -/
theorem rankOf_first {table : List BaseEntry} {k : Nat} (hk : table[k]? = some e)
    (first : ∀ x ∈ table.take k, x.serial ≠ e.serial) : rankOf e.serial table = k + 1 := by
  obtain ⟨hlt, hget⟩ := List.getElem?_eq_some_iff.mp hk
  have place : table.findIdx (fun x => x.serial == e.serial) = k := by
    rw [List.findIdx_eq hlt]
    refine ⟨by rw [hget]; simp, fun j hj => ?_⟩
    simpa using first _ (List.mem_take_iff_getElem.mpr ⟨j, by omega, rfl⟩)
  rw [rankOf, place]

/-- R77, R78: the code of a reply that says whether the value was clamped. -/
theorem clamped_reply {c asked : Int} (content : Content) :
    Reply.clamped (decide (c ≠ asked)) content = { result := if c = asked then .ok else .clamped, content := content } := by
  by_cases h : c = asked <;> simp [Reply.clamped, h]

/-- R77: a request that speaks of an entry. -/
theorem setBaseOffset_found {p : List Byte} (h : Ready .setBaseOffset s) (hl : p.length = 9)
    (he : offsetTarget p s = .inr e) :
    ∃ t, exec (.setBaseOffset tag p) s = .next t ∧
      Answered .setBaseOffset tag
        (Reply.clamped (decide (clampInt (-720) 720 (s16 p 7) ≠ s16 p 7))
          (.entry { e with offset := clampInt (-720) 720 (s16 p 7) } (rankOf e.serial s.settings.table))) t ∧
      OffsetPut e (clampInt (-720) 720 (s16 p 7)) s t ∧
      Changes (tableParts ++ activeParts) s t := by
  let taken := inSlot .setBaseOffset tag p .taken s
  have start : Changes [.assembler, .link] s taken := inSlot_changes .setBaseOffset tag p .taken s
  have served := serveSetBaseOffset_found (place := freePlace s.lc.slots) (payload := p) (s := taken) he
  obtain ⟨answered, put⟩ := offset_request (kind := .setBaseOffset) (tag := tag) (e := e)
    (c := clampInt (-720) 720 (s16 p 7)) h p
  exact ⟨serveSetBaseOffset (freePlace s.lc.slots) p taken, exec_request_ready h hl, served ▸ answered, served ▸ put,
    (start.mono (by decide)).step (serveSetBaseOffset_changes _ _ _) (by decide)⟩

/-- Settles O34, from `forgetBase_known` and `setBaseOffset_found` and the refusals of the two. -/
theorem tableRequests : Obligations.TableRequests := by
  intro tag which ser off s hser hoff
  have length : (which :: ser ++ off).length = 9 := by simp [hser, hoff]
  obtain ⟨b0, b1, b2, b3, b4, b5, rfl⟩ : ∃ a b c d e f, ser = [a, b, c, d, e, f] := by
    match ser, hser with
    | [a, b, c, d, e, f], _ => exact ⟨a, b, c, d, e, f, rfl⟩
  obtain ⟨lo, hi, rfl⟩ : ∃ a b, off = [a, b] := by
    match off, hoff with
    | [a, b], _ => exact ⟨a, b, rfl⟩
  dsimp only
  refine ⟨fun h unknown => ?_, fun h e known => ?_, fun h => ⟨fun bad => ?_, fun one away => ?_, fun hw e k he hk first => ?_⟩⟩
  · exact exec_request_answered (k := .forgetBase) h hser (serveForgetBase_unknown unknown)
  · obtain ⟨t, run, answered, forgotten, frame, narrow⟩ := forgetBase_known (tag := tag) h hser known
    have serial := findEntry_serial known
    refine ⟨t, run, answered, fun differs => ?_, fun other => ?_, fun active => ?_⟩
    · by_cases active : s.bm.active = some e.serial
      · exact (forgotten.active active).changed differs
      · exact (forgotten.other active).changed differs
    · rw [← serial] at other ⊢
      exact ⟨(forgotten.other other).written, narrow other⟩
    · rw [← serial] at active ⊢
      refine ⟨(forgotten.active active).written, fun nonzero => ?_, frame⟩
      obtain ⟨offset, broken, -⟩ := forgotten.moved active nonzero
      exact ⟨offset, broken⟩
  · refine exec_request_answered (k := .setBaseOffset) h length (serveSetBaseOffset_refused ?_)
    rcases bad with above | ⟨zero, unknown⟩
    · exact offsetTarget_bad above
    · rw [if_pos zero] at unknown
      subst zero
      rw [offsetTarget_serial rfl]
      exact congrArg (Option.elim · _ _) unknown
  · subst one
    refine exec_request_answered (k := .setBaseOffset) h length (serveSetBaseOffset_refused ?_)
    rw [offsetTarget_active rfl]
    exact congrArg (Option.elim · _ _) away
  · obtain ⟨t, run, answered, put, frame⟩ := setBaseOffset_found (tag := tag) h length
      (offsetTarget_found (which := which) hw rfl rfl he)
    rw [clamped_reply, rankOf_first hk first] at answered
    refine ⟨t, run, answered, put.same, fun new => (put.tabled new).written, put.changed, fun active new => ?_, frame⟩
    obtain ⟨offset, broken, -⟩ := put.moved new active
    exact ⟨offset, broken⟩

end Sys2Proof.Machine

/-!
CALIBRATE_HINGE (R78) and ACCEPT_BASE (R70).
-/
namespace Sys2Proof.Machine

open Sys2Proof.Claims

variable {place : Nat} {tag : Byte} {s t u : State} {payload : List Byte} {e : BaseEntry} {i : Identity}

/-! ### CALIBRATE_HINGE (R78) -/

/-- R78: the calibration needs an attached base, a fresh locked posture and a current θ. -/
def Measured (s : State) : Prop :=
  s.bm.state = .attached ∧ s.pe.posture.state = .locked ∧ s.pe.fresh = true ∧ s.pe.thetaCurrent = true

theorem calibrateTarget_measured (h : Measured s) :
    calibrateTarget s = s.bm.active.bind fun a => findEntry a s.settings.table := if_pos h

theorem calibrateTarget_none (h : ¬ Measured s ∨ (s.bm.active.bind fun a => findEntry a s.settings.table) = none) :
    calibrateTarget s = none := by
  by_cases measured : Measured s
  · rw [calibrateTarget_measured measured]
    exact h.resolve_left fun g => g measured
  · exact if_neg measured

theorem serveCalibrateHinge_refused (h : calibrateTarget s = none) :
    serveCalibrateHinge place payload s = answer place (Reply.code .wrongState) s := by
  simp only [serveCalibrateHinge, h]

/-- The offset that CALIBRATE_HINGE writes into an entry (R78). -/
def calibration (payload : List Byte) (e : BaseEntry) (s : State) : Int :=
  clampInt (-720) 720 (calibrated (min 5759 (u16 payload 0)) (s.pe.theta.getD 0) e.offset)

/-- The reply with which it is told (R78). -/
def calibrationReply (payload : List Byte) (e : BaseEntry) (s : State) : Reply :=
  Reply.clamped
    (decide (min 5759 (u16 payload 0) ≠ u16 payload 0) ||
      decide (calibration payload e s ≠ calibrated (min 5759 (u16 payload 0)) (s.pe.theta.getD 0) e.offset))
    (.calibration (s.pe.theta.getD 0) e.offset (calibration payload e s))

theorem serveCalibrateHinge_found (h : calibrateTarget s = some e) :
    serveCalibrateHinge place payload s =
      raceLc (answer place (calibrationReply payload e s)) (putOffset e (calibration payload e s)) s := by
  simp only [serveCalibrateHinge, h]
  rfl

/-- R78: the code is OK where neither the angle nor the offset was clamped. -/
theorem calibrationReply_eq (payload : List Byte) (e : BaseEntry) (s : State) :
    calibrationReply payload e s =
      { result :=
          if min 5759 (u16 payload 0) = u16 payload 0 ∧
              calibration payload e s = calibrated (min 5759 (u16 payload 0)) (s.pe.theta.getD 0) e.offset
          then .ok else .clamped
        content := .calibration (s.pe.theta.getD 0) e.offset (calibration payload e s) } := by
  unfold calibrationReply Reply.clamped
  by_cases both : min 5759 (u16 payload 0) = u16 payload 0 ∧
      calibration payload e s = calibrated (min 5759 (u16 payload 0)) (s.pe.theta.getD 0) e.offset
  · rw [if_pos both, if_neg (by simpa using both)]
  · rw [if_neg both, if_pos (by simpa [imp_iff_not_or] using both)]

/-- R28, R78: with the written offset in place of the old one θ is the true angle. -/
theorem calibrated_true (angle theta : Nat) (offset : Int) (h : angle < 5760) :
    ((theta : Int) - offset + calibrated angle theta offset) % 5760 = angle := by
  unfold calibrated
  omega

/-- R78: a calibration of the active base's entry. -/
theorem calibrateHinge_found {p : List Byte} (h : Ready .calibrateHinge s) (hl : p.length = 2)
    (he : calibrateTarget s = some e) :
    ∃ t, exec (.calibrateHinge tag p) s = .next t ∧
      Answered .calibrateHinge tag (calibrationReply p e s) t ∧ OffsetPut e (calibration p e s) s t ∧
      Changes ([.table, .image, .commit, .assembler, .baseSamples, .locks, .freshness, .hingeBase] ++ viewParts) s t := by
  let taken := inSlot .calibrateHinge tag p .taken s
  have start : Changes [.assembler, .link] s taken := inSlot_changes .calibrateHinge tag p .taken s
  have served := serveCalibrateHinge_found (place := freePlace s.lc.slots) (payload := p) (s := taken) he
  obtain ⟨answered, put⟩ := offset_request (kind := .calibrateHinge) (tag := tag) (r := calibrationReply p e s) (e := e)
    (c := calibration p e s) h p
  exact ⟨serveCalibrateHinge (freePlace s.lc.slots) p taken, exec_request_ready h hl, served ▸ answered, served ▸ put,
    (start.mono (by decide)).step (serveCalibrateHinge_changes _ _ _) (by decide)⟩

/-! ### ACCEPT_BASE (R70) -/

theorem serveAcceptBase_refused (h : s.bm.state = .refused) (hi : s.bm.identity = some i) :
    serveAcceptBase place s =
      toPowering (drawClaim i)
        (answer place (Reply.ok (.admitted (entryOf i) 1 (evictedBy i.serial s.settings.table))) (createEntry i s)) := by
  simp only [serveAcceptBase, h, hi]

theorem serveAcceptBase_elsewhere (h : s.bm.state ≠ .refused) :
    serveAcceptBase place s = answer place (Reply.code .wrongState) s := by
  unfold serveAcceptBase
  split
  · exact absurd ‹_› h
  · rfl

theorem askIdentity_told (s : State) : Told s.lc (askIdentity s).lc := .refl _

theorem startIdentify_told (s : State) : Told s.lc (startIdentify s).lc := by
  unfold startIdentify
  exact bmReport_told false askIdentity_told
    { s with bm := { s.bm with state := .identifying, bpwr := true, phase := some .query1 } }

theorem poweringFiled_told (amount : Nat) (s : State) : Told s.lc (poweringFiled amount s).lc := by
  have report : Told s.lc (bmReport false id { s with bm := s.bm.powering }).lc :=
    bmReport_told (acts := id) false (fun v => .refl v.lc) { s with bm := s.bm.powering }
  unfold poweringFiled
  exact report.trans (fileBase_relayed amount _).told

/-- R62: the way to POWERING and on to the first query tells LC events alone. -/
theorem toPowering_told (amount : Nat) (s : State) : Told s.lc (toPowering amount s).lc := by
  have filed := poweringFiled_told amount s
  rw [toPowering_eq]
  split
  · exact filed.trans (startIdentify_told _)
  · exact filed

theorem createEntry_tabled (i : Identity) (s : State) :
    Tabled (rankFirst (entryOf i) s.settings.table) s (createEntry i s) :=
  ⟨setTable_table _ _, createEntry_commitAsked⟩

/-- R70: ACCEPT_BASE in REFUSED. -/
theorem acceptBase_refused (h : Ready .acceptBase s) (hs : s.bm.state = .refused) (hi : s.bm.identity = some i) :
    ∃ t, exec (.acceptBase tag []) s = .next t ∧ Tabled (rankFirst (entryOf i) s.settings.table) s t ∧
      Answered .acceptBase tag (Reply.ok (.admitted (entryOf i) 1 (evictedBy i.serial s.settings.table))) t ∧
      t.rba.base = some { requested := drawClaim i, minimum := drawClaim i } ∧
      (drawClaim i ≤ s.rba.capacity → t.bm.state = .identifying ∧ t.bm.bpwr = true ∧ t.bm.phase = some .query1) ∧
      (s.rba.capacity < drawClaim i → t.bm.state = .powering ∧ t.bm.bpwr = false) ∧
      Changes ([.table, .presence, .bmState, .identify, .marks, .claims, .image, .commit, .assembler] ++ reportParts ++
        noticeParts) s t := by
  let place := freePlace s.lc.slots
  let taken := inSlot .acceptBase tag [] .taken s
  let reply := Reply.ok (.admitted (entryOf i) 1 (evictedBy i.serial s.settings.table))
  let admitted := answer place reply (createEntry i taken)
  have start : Changes [.assembler, .link] s taken := inSlot_changes .acceptBase tag [] .taken s
  have created := createEntry_changes i taken
  have told := answer_changes place reply (createEntry i taken)
  have powered := toPowering_changes (drawClaim i) admitted
  have served : serveAcceptBase place taken = toPowering (drawClaim i) admitted := serveAcceptBase_refused hs hi
  have capacity : admitted.rba.capacity = s.rba.capacity :=
    congrArg Rba.capacity ((told.rba_eq (by decide)).trans (created.rba_eq (by decide)))
  have answered : AnsweredIn place .acceptBase tag reply admitted :=
    answer_answeredIn reply
      ((Told.of_changes created (by decide)).takenIn (inSlot_takenIn .acceptBase tag [] h.2.2.1))
  refine ⟨serveAcceptBase place taken, exec_request_ready h rfl, ?_, ?_, ?_, fun fits => ?_, fun exceeds => ?_,
    (start.mono (by decide)).step (serveAcceptBase_changes _ _) (by decide)⟩ <;> rw [served]
  · exact (((createEntry_tabled i taken).from start (by decide)).through told (by decide)).through powered (by decide)
  · exact ((toPowering_told _ admitted).answeredIn answered).answered
  · exact (toPowering_rba _ _).1
  · rw [(toPowering_granted (capacity ▸ fits)).1]
    exact ⟨rfl, rfl, rfl⟩
  · rw [(toPowering_ungranted (capacity ▸ exceeds)).1]
    exact ⟨rfl, rfl⟩

/-- Settles O35, from `calibrateHinge_found` and `acceptBase_refused` and the refusals of the two. -/
theorem calibrateAndAccept : Obligations.CalibrateAndAccept := by
  intro tag lo hi s
  refine ⟨fun h missing => ?_, fun h measured e he => ⟨?_, ?_⟩, fun h hs i hi => ?_, fun h hs => ?_⟩
  · exact exec_request_answered (k := .calibrateHinge) h rfl (serveCalibrateHinge_refused (calibrateTarget_none missing))
  · exact calibrated_true _ _ _ (by omega)
  · have found : calibrateTarget s = some e := (calibrateTarget_measured measured).trans he
    obtain ⟨t, run, answered, put, frame⟩ := calibrateHinge_found (tag := tag) (p := [lo, hi]) h rfl found
    obtain ⟨a, active, entry⟩ := Option.bind_eq_some_iff.mp he
    have serial : s.bm.active = some e.serial := active.trans (congrArg some (findEntry_serial entry).symm)
    rw [calibrationReply_eq] at answered
    refine ⟨t, run, answered, fun new => ?_, frame⟩
    obtain ⟨offset, ⟨filter, fresh⟩, current⟩ := put.moved new serial
    have written := put.tabled new
    exact ⟨written.written, offset, filter, fresh, current,
      written.commit (writeOffset_changes (findEntry_mem entry) new)⟩
  · obtain ⟨t, run, table, answered, claim, granted, ungranted, frame⟩ := acceptBase_refused (tag := tag) h hs hi
    exact ⟨t, run, table.written, answered, claim, table.changed, granted, ungranted, frame⟩
  · exact exec_request_answered (k := .acceptBase) h rfl (serveAcceptBase_elsewhere hs)

end Sys2Proof.Machine

/-!
The latch as it must stand (R89, R90, R114).

LSOL is switched on in one place, the open check, which BM enters in RELEASING over the granted LATCH claim. Everything
that changes a claim of BM, or leaves RELEASING, happens with LSOL off (`Unlit`): either it has just been switched off, or
BM's state or the detach record says that it was off. What is left are the acts that find it on: PDC's claim ranks last
and leaves the LATCH grant as it is, and a new capacity that takes the grant away is followed by BM's notice, which
switches LSOL off (`noticeLatch_settles`). Until that notice `Lit False` holds, which does not ask for the grant.
-/
namespace Sys2Proof.Machine

open Sys2Proof.Claims

variable {C : Prop} {s t u : State}

/-! ### The latch and the rail -/

/-- A filed LATCH claim is that of R89, and the grants are those of R114. -/
def RailOk (r : Rba) : Prop :=
  (∀ c, r.latch = some c → c = ⟨250, 250⟩) ∧ r.grants = grantTable r.capacity r.base r.latch r.pen

/-- LSOL is on only in an open check or a window of an energised attempt in RELEASING; the LATCH grant that goes with it
stands where `C` asks for it. -/
def Lit (C : Prop) (s : State) : Prop :=
  (s.det.lsol = true →
    s.bm.state = .releasing ∧ (C → s.rba.grants.latch = 250) ∧ s.det.energised = true ∧
    (s.det.deadline = .openCheck ∨ s.det.deadline = .window)) ∧
  RailOk s.rba

/-- LSOL is off. -/
def Unlit (s : State) : Prop := s.det.lsol = false ∧ RailOk s.rba

theorem latchHolds_iff (s : State) : latchHolds s ↔ Lit True s := by
  simp only [latchHolds, Lit, RailOk, true_implies]

theorem Unlit.lit (h : Unlit s) : Lit C s := ⟨fun on => by simp [h.1] at on, h.2⟩

theorem Lit.off (h : Lit C s) (hoff : ¬ s.det.lsol = true) : Unlit s := ⟨Bool.eq_false_iff.mpr hoff, h.2⟩

theorem Lit.unlit_of_state (h : Lit C s) (hs : s.bm.state ≠ .releasing) : Unlit s := h.off fun on => hs (h.1 on).1

theorem Lit.unlit_of_energised (h : Lit C s) (he : s.det.energised = false) : Unlit s := h.off fun on => by
  obtain ⟨-, -, energised, -⟩ := h.1 on
  simp [he] at energised

theorem Lit.unlit_of_deadline (h : Lit C s) (hd : s.det.deadline ≠ .openCheck ∧ s.det.deadline ≠ .window) : Unlit s :=
  h.off fun on => by
    obtain ⟨-, -, -, deadline⟩ := h.1 on
    exact deadline.elim hd.1 hd.2

theorem Unlit.through {m : List Part} (h : Unlit s) (c : Changes m s t) (hm : ∀ p ∈ .lsol :: rbaParts, p ∉ m) :
    Unlit t := by
  have lsol : t.det.lsol = s.det.lsol := c.same .lsol (hm _ (by decide))
  have rba : t.rba = s.rba := c.rba_eq fun p hp => hm p (List.mem_cons_of_mem _ hp)
  rwa [Unlit, lsol, rba]

theorem Lit.through {m : List Part} (h : Lit C s) (c : Changes m s t)
    (hm : ∀ p ∈ [.bmState, .attempt, .lsol] ++ rbaParts, p ∉ m) : Lit C t := by
  have state : t.bm.state = s.bm.state := c.same .bmState (hm _ (by decide))
  have lsol : t.det.lsol = s.det.lsol := c.same .lsol (hm _ (by decide))
  have rba : t.rba = s.rba := c.rba_eq fun p hp => hm p (List.mem_append_right _ hp)
  have attempt := c.same .attempt (hm _ (by decide))
  simp only [Part.Same, Prod.mk.injEq] at attempt
  obtain ⟨-, -, deadline, -, energised, -⟩ := attempt
  rwa [Lit, state, lsol, rba, deadline, energised]

theorem compute_railOk {r : Rba} (h : ∀ c, r.latch = some c → c = ⟨250, 250⟩) : RailOk r.compute := ⟨h, rfl⟩

/-- R114: a LATCH claim of 250 mA is granted in full or not at all, and no claim is granted nothing. -/
theorem RailOk.grant {r : Rba} (h : RailOk r) : r.grants.latch = 0 ∨ r.latch.isSome = true ∧ r.grants.latch = 250 := by
  obtain ⟨claim, table⟩ := h
  rw [table]
  cases hl : r.latch with
  | none => exact .inl rfl
  | some c =>
    cases claim c hl
    have fits : ∀ left, grantOf left (some ⟨250, 250⟩) = 0 ∨ grantOf left (some ⟨250, 250⟩) = 250 := fun left => by
      simp only [grantOf]
      split <;> omega
    exact (fits _).imp_right fun full => ⟨rfl, full⟩

/-- R114: PEN ranks last, so a new PEN claim leaves the LATCH grant as it is. -/
theorem RailOk.grant_pen {r : Rba} (h : RailOk r) (pen : Option Claim) :
    ({ r with pen := pen } : Rba).compute.grants.latch = r.grants.latch := by
  rw [h.2]
  rfl

/-- A new PEN claim. -/
theorem Lit.pen (h : Lit C s) (pen : Option Claim) : Lit C { s with rba := ({ s.rba with pen := pen } : Rba).compute } := by
  refine ⟨fun on => ?_, compute_railOk h.2.1⟩
  rw [h.2.grant_pen pen]
  exact h.1 on

/-! ### The pen -/

/-- The operation keeps the latch as it stands, with its grant or without. -/
abbrev KeepsLit (f : State → State) : Prop := ∀ {C s}, Lit C s → Lit C (f s)

theorem KeepsLit.when {f : State → State} (b : Bool) (hf : KeepsLit f) : KeepsLit (if b = true then f else id) :=
  fun h => by
  cases b with
  | false => exact h
  | true => exact hf h

theorem KeepsLit.anyOrder {f g k : State → State} (hf : KeepsLit f) (hg : KeepsLit g) (hk : KeepsLit k) :
    KeepsLit (anyOrder f g k) :=
  fun h => anyOrder_keeps (fun _ h => h) (fun _ => hf) (fun _ => hg) (fun _ => hk) h

theorem KeepsLit.raceLc {emit act : State → State} (he : KeepsLit emit) (ha : KeepsLit act) :
    KeepsLit (raceLc emit act) :=
  fun h => raceLc_keeps (fun _ h => h) (fun _ => he) (fun _ => ha) h

theorem offer_lit (e : Event) : KeepsLit (offer e) := fun h => h.through (offer_changes e _) (by decide)

theorem answer_lit (place : Nat) (r : Reply) : KeepsLit (answer place r) :=
  fun h => h.through (answer_changes place r _) (by decide)

theorem filePen_lit (requested : Nat) : KeepsLit (filePen requested) := fun h => h.pen _

theorem stopCharging_lit : KeepsLit stopCharging := fun h => by
  unfold stopCharging withdrawPen
  split
  · exact h
  · exact h.pen none

theorem enterPhase_lit (ph : ChargePhase) : KeepsLit (enterPhase ph) := fun {C s} h => by
  have answered : ∀ v, Lit C v → Lit C (if v.pdc.grant = 0 then waitGrant ph v else runPhase ph v) := fun v hv => by
    split
    · exact hv.through (waitGrant_changes _ _) (by decide)
    · exact hv.through (runPhase_changes _ _) (by decide)
  have filed : Lit C (filePen (phaseAmount s.settings.pen ph) s) := filePen_lit _ h
  refine answered _ ?_
  split
  · exact filed
  · exact filed

theorem reachFull_lit : KeepsLit reachFull := fun h => stopCharging_lit h

theorem suspendPen_lit : KeepsLit suspendPen := fun h => stopCharging_lit h

theorem enterFault_lit (reason : PenFault) : KeepsLit (enterFault reason) := fun {C s} h => by
  have stopped : ∀ p, Lit C { stopCharging s with pdc := p } := fun _ => stopCharging_lit h
  exact (stopped _).through (rise_changes _ _ _) (by decide)

theorem phaseChoice_lit : KeepsLit phaseChoice := fun h => by
  unfold phaseChoice
  split
  · exact h
  · split
    · exact enterFault_lit _ h
    · split
      · exact reachFull_lit h
      · split
        · exact suspendPen_lit h
        · exact enterPhase_lit _ (h.through (openCycle_changes _) (by decide))

theorem changeReasons_lit (new : BitVec 3) : KeepsLit (changeReasons new) := fun {C s} h => by
  have changed : Lit C { s with pdc := { s.pdc with reasons := new } } := h
  unfold changeReasons
  dsimp only
  split
  · exact suspendPen_lit changed
  · split
    · exact phaseChoice_lit changed
    · exact changed

theorem advancePhase_lit (mv : Nat) : KeepsLit (advancePhase mv) := fun h => by
  unfold advancePhase
  split
  · exact enterPhase_lit _ h
  · split
    · exact enterPhase_lit _ h
    · exact h

theorem ownHandling_lit (st : PenStatus) : KeepsLit (ownHandling st) := fun h => by
  unfold ownHandling
  split
  · exact phaseChoice_lit h
  · exact advancePhase_lit _ h
  · exact advancePhase_lit _ h
  · split
    · exact phaseChoice_lit h
    · exact h
  · exact h

theorem takeStatus_lit (st : PenStatus) : KeepsLit (takeStatus st) := fun {C s} h => by
  have taken : Lit C { s with pdc := { s.pdc with last := some st } } := h
  unfold takeStatus
  dsimp only
  split
  · exact enterFault_lit _ taken
  · split
    · exact changeReasons_lit _ taken
    · exact ownHandling_lit _ (changeReasons_lit _ taken)

theorem removePen_lit : KeepsLit removePen := fun {C s} h => by
  have stopped : Lit C (fallFault (stopCharging s).pdc.fault (stopCharging s)) :=
    (stopCharging_lit h).through (fallFault_changes _ _) (by decide)
  exact stopped

theorem pdcStep_lit (c : Option WakeCause) {f : State → State} (hf : KeepsLit f) : KeepsLit (pdcStep c f) := fun h => by
  unfold pdcStep
  dsimp only
  split
  · exact KeepsLit.when _ (offer_lit _) (hf h)
  · exact KeepsLit.raceLc (KeepsLit.when _ (offer_lit _)) (fun h => h.through (spuPen_changes c _) (by decide)) (hf h)

theorem pdcSupply_lit : KeepsLit pdcSupply := pdcStep_lit _ fun h => changeReasons_lit _ h

theorem noticePen_lit : KeepsLit noticePen := fun h => h.through (noticePen_changes _) (by decide)

theorem penRemoved_lit : KeepsLit penRemoved := fun {C s} h => by
  have removed : Lit C (pdcStep (some .penRemoved) removePen { s with pdc := { s.pdc with removal := none } }) :=
    pdcStep_lit _ removePen_lit (s := { s with pdc := { s.pdc with removal := none } }) h
  exact removed.through (penAfresh_changes _) (by decide)

theorem penStatusArrived_lit (intact : Bool) (st : PenStatus) : KeepsLit (penStatusArrived intact st) := fun h => by
  have endsPoll : KeepsLit (pdcStep none fun s => endPoll (takeStatus (saturateStatus st) s)) :=
    pdcStep_lit _ fun h => (takeStatus_lit _ h).through (endPoll_changes _) (by decide)
  unfold penStatusArrived handleStatus
  dsimp only
  split
  · split
    · exact endsPoll (pdcStep_lit _ (fun h => h.through (enterIdentifying_changes _) (by decide))
        (pdcStep_lit _ removePen_lit h))
    · exact endsPoll h
  · exact h

theorem pollUnanswered_lit : KeepsLit pollUnanswered := pdcStep_lit _ fun {C s} h => by
  have unanswered : ∀ p, Lit C { s with pdc := p } := fun _ => h
  dsimp only
  split
  · exact enterFault_lit _ (unanswered _)
  · exact unanswered _

theorem penReading_lit (current : Nat) : KeepsLit (penReading current) := fun h => by
  unfold penReading
  split
  · split
    · split
      · exact h
      · split
        · exact pdcStep_lit _ reachFull_lit h
        · exact h
    · exact h
  · exact h

theorem prechargeExpired_lit : KeepsLit prechargeExpired := fun h => by
  unfold prechargeExpired
  split
  · exact pdcStep_lit _ (enterFault_lit _) h
  · exact h

theorem safetyExpired_lit : KeepsLit safetyExpired := fun h => by
  unfold safetyExpired
  split
  · exact pdcStep_lit _ (enterFault_lit _) h
  · exact h

theorem replacePen_lit (p : PenSettings) : KeepsLit (replacePen p) := pdcStep_lit _ fun {C s} h => by
  have replaced : Lit C { s with settings := { s.settings with pen := p } } := h
  have reasons : ∀ new, Lit C (changeReasons new { s with settings := { s.settings with pen := p } }) :=
    fun new => changeReasons_lit new replaced
  dsimp only
  split
  · exact enterPhase_lit _ (reasons _)
  · exact reasons _

/-! ### The base, with LSOL off -/

/-- What BM's own acts at its reports may change. -/
def actParts : List Part := [.identify, .marks, .latched, .history] ++ reportParts

theorem bmReport_unlit (attach : Bool) {acts : State → State} (ha : ∀ v, Changes actParts v (acts v)) (h : Unlit s) :
    Unlit (bmReport attach acts s) := h.through (bmReport_changes (by decide) ha s) (by decide)

/-- A new claim table of BM. -/
theorem Unlit.claims (h : Unlit s) {r : Rba} (hl : ∀ c, r.latch = some c → c = ⟨250, 250⟩) :
    Unlit (noticePen { s with rba := r.compute }) :=
  Unlit.through (s := { s with rba := r.compute }) ⟨h.1, compute_railOk hl⟩ (noticePen_changes _) (by decide)

theorem fileBase_unlit (amount : Nat) (h : Unlit s) : Unlit (fileBase amount s) := h.claims h.2.1

theorem fileLatch_unlit (h : Unlit s) : Unlit (fileLatch s) := h.claims fun _ hc => (Option.some.inj hc).symm

theorem withdrawBase_unlit (h : Unlit s) : Unlit (withdrawBase s) := by
  unfold withdrawBase
  split
  · exact h
  · exact h.claims h.2.1

theorem withdrawLatch_unlit (h : Unlit s) : Unlit (withdrawLatch s) := by
  unfold withdrawLatch
  split
  · exact h
  · exact h.claims fun _ hc => nomatch hc

theorem toPowering_unlit (amount : Nat) (h : Unlit s) : Unlit (toPowering amount s) := by
  have reported : Unlit (bmReport false id { s with bm := s.bm.powering }) :=
    bmReport_unlit false (fun v => .refl _ v) (s := { s with bm := s.bm.powering }) h
  exact (fileBase_unlit amount reported).through (powerIfGranted_changes _) (by decide)

/-- What may reach CM and LC before BM tells the end of an attempt. -/
abbrev Tells (first : State → State) : Prop := ∀ v, Changes [.live, .latched, .history, .link, .queue] v (first v)

theorem lossOfPowerAfter_unlit {first : State → State} (hf : Tells first) (h : Unlit s) :
    Unlit (lossOfPowerAfter first s) := by
  have tells : ∀ v, Changes actParts v (offer (.baseLost .noPower s.bm.active) (rise .baseLost 2 (first v))) := fun v =>
    (((hf v).mono (by decide)).step (rise_changes _ _ _) (by decide)).step (offer_changes _ _) (by decide)
  have reported := bmReport_unlit false tells
    (s := { s with
      bm := { s.bm.powering with stream := .running, quiesce := none, active := none }
      det := { s.det with deadline := .none, timer := none, unpowered := false } }) h
  exact (fileBase_unlit _ reported).through (powerIfGranted_changes _) (by decide)

/-- An attempt is over with this outcome, in the detach record (R82, R98). -/
def attemptOver (o : DetachOutcome) (s : State) : State := { s with det := s.det.ended o s.now }

/-- An attempt is over with this outcome, and BM is back in ATTACHED (R98). -/
def attemptBack (o : DetachOutcome) (s : State) : State :=
  { s with det := s.det.ended o s.now, bm := { s.bm with state := .attached } }

/-- What BM tells at the end of an attempt: `first` reaches CM, then DETACH_RESULT reaches LC (R98). -/
def tellEnd (first : State → State) (o : DetachOutcome) (serial : Option Serial) (s : State) : State :=
  offerResult o serial (first s)

/-- R98: over a base that has its supply BM returns to ATTACHED. -/
theorem endAttemptAfter_back {o : DetachOutcome} (first : State → State) (h : s.det.unpowered = false) :
    endAttemptAfter first o s =
      bmReport false (raceLc (tellEnd first o s.bm.active) compareStream) (attemptBack o s) :=
  if_neg (by simpa [Det.ended] using h)

/-- R93: over a base that has lost its supply BM powers it afresh, and tells the end before that or within it. -/
theorem endAttemptAfter_lost {o : DetachOutcome} (first : State → State) (h : s.det.unpowered = true) :
    endAttemptAfter first o s = lossOfPower (tellEnd first o s.bm.active (attemptOver o s).nextChoice) ∨
    endAttemptAfter first o s = lossOfPowerAfter (tellEnd first o s.bm.active) (attemptOver o s).nextChoice := by
  have lost : endAttemptAfter first o s = eitherTime (tellEnd first o s.bm.active) lossOfPowerAfter (attemptOver o s) := if_pos h
  rw [lost]
  exact eitherTime_cases _ _ _

theorem tellEnd_tells {first : State → State} (hf : Tells first) (o : DetachOutcome) (serial : Option Serial) :
    Tells (tellEnd first o serial) := fun v => (hf v).step (offerResult_changes _ _ _) (by decide)

theorem endAttemptAfter_unlit {first : State → State} (hf : Tells first) (o : DetachOutcome) (h : Unlit s) :
    Unlit (endAttemptAfter first o s) := by
  have tell := tellEnd_tells hf o s.bm.active
  have ended : Unlit (attemptOver o s).nextChoice := h
  cases hu : s.det.unpowered with
  | true =>
    rcases endAttemptAfter_lost first (o := o) hu with e | e <;> rw [e]
    · exact lossOfPowerAfter_unlit (fun v => .refl _ v) (ended.through (tell _) (by decide))
    · exact lossOfPowerAfter_unlit tell ended
  | false =>
    rw [endAttemptAfter_back first hu]
    exact bmReport_unlit false (fun v => raceLc_changes (by decide) (fun w => (tell w).mono (by decide))
      (fun w => (compareStream_changes w).mono (by decide)) v) (s := attemptBack o s) h

theorem endAttempt_unlit (o : DetachOutcome) (h : Unlit s) : Unlit (endAttempt o s) :=
  endAttemptAfter_unlit (fun v => .refl _ v) o h

theorem endStuck_unlit (detail : Nat) (h : Unlit s) : Unlit (endStuck detail s) :=
  endAttemptAfter_unlit (rise_changes _ _) _ h

/-- LSOL has just been switched off and the deadline's timer stopped. -/
theorem Lit.darken (h : Lit C s) : Unlit { s with det := { s.det with lsol := false, timer := none } } := ⟨rfl, h.2⟩

theorem toClosing_unlit (why : ClosingReason) (h : Lit C s) : Unlit (toClosing why s) := by
  have withdrawn := withdrawLatch_unlit h.darken
  have reported : ∀ b : Bm, ∀ c d r, Unlit (bmReport false compareStream
      { withdrawLatch { s with det := { s.det with lsol := false, timer := none } } with
        bm := b
        det := { (withdrawLatch { s with det := { s.det with lsol := false, timer := none } }).det with
          closing := c, deadline := d, timer := r } }) := fun _ _ _ _ =>
    bmReport_unlit false (fun v => (compareStream_changes v).mono (by decide)) ⟨withdrawn.1, withdrawn.2⟩
  unfold toClosing
  dsimp only
  split
  · exact endAttempt_unlit _ (reported _ _ _ _)
  · exact reported _ _ _ _

theorem takeIdent_unlit (i : Identity) (h : Unlit s) : Unlit (takeIdent i s) := by
  have attaches : ∀ {v}, Unlit v → Unlit (toAttached i v) := fun h => h.through (toAttached_changes i _) (by decide)
  have checks : ∀ {v}, Unlit v → Unlit (identityCheck i v) := fun {v} h => by
    unfold identityCheck
    split
    · exact attaches (h.through (setTable_changes _ v) (by decide))
    · split
      · exact attaches (h.through (createEntry_changes i v) (by decide))
      · exact bmReport_unlit false (fun v => (offer_changes _ v).mono (by decide))
          (withdrawBase_unlit (s := { v with bm := { v.bm with state := .refused, phase := none, bpwr := false } }) h)
  have filed : ∀ b, Unlit (fileBase (drawClaim i) { s with bm := b }) := fun b =>
    fileBase_unlit (s := { s with bm := b }) _ h
  unfold takeIdent
  dsimp only
  split
  · split
    · exact checks (filed _)
    · exact toPowering_unlit _ (filed _)
  · exact h

theorem queryExpired_unlit (h : Unlit s) : Unlit (queryExpired s) := by
  unfold queryExpired
  dsimp only
  split
  · exact h
  · exact bmReport_unlit false (fun v => (rise_changes _ _ v).mono (by decide)) (withdrawBase_unlit (s := { s with bm := _ }) h)
  · exact h

theorem serveAcceptBase_unlit (place : Nat) (h : Unlit s) : Unlit (serveAcceptBase place s) := by
  unfold serveAcceptBase
  split
  · exact toPowering_unlit _
      ((h.through (createEntry_changes _ _) (by decide)).through (answer_changes _ _ _) (by decide))
  · exact h.through (answer_changes _ _ _) (by decide)

/-! ### Base-gone (R61, R73, R95) -/

theorem dropped_unlit (h : Lit C s) : Unlit (dropped s) := withdrawBase_unlit (s := toAbsent s) ⟨rfl, h.2⟩

theorem takeAfresh_unlit (h : Unlit s) : Unlit (takeAfresh s) := h.through (takeAfresh_changes s) (by decide)

theorem attachAbandoned_unlit (h : Lit C s) : Unlit (attachAbandoned s) := by
  have gone : ∀ v, Lit C v → Unlit (takeAfresh (bmReport false id (dropped v))) := fun v h =>
    takeAfresh_unlit (bmReport_unlit false (fun v => .refl _ v) (dropped_unlit h))
  unfold attachAbandoned
  dsimp only
  split
  · exact gone (fall .baseIdFail s) h
  · exact gone s h

theorem baseLoss_unlit (h : Lit C s) : Unlit (baseLoss s) :=
  takeAfresh_unlit (bmReport_unlit false (fun v => (lossActs_changes _ v).mono (by decide)) (dropped_unlit h))

theorem baseDetach_unlit (h : Lit C s) : Unlit (baseDetach s) := by
  have latch : Unlit (unfed s) := withdrawLatch_unlit h.darken
  have rail : RailOk (withdrawBase (unfed s)).rba := (withdrawBase_unlit latch).2
  have gone : Unlit (detachedBase s) := ⟨rfl, rail⟩
  exact takeAfresh_unlit (bmReport_unlit false (fun v => (detachActs_changes _ v).mono (by decide)) gone)

theorem baseIsGone_lit : KeepsLit baseIsGone := fun h => by
  unfold baseIsGone
  split
  iterate 4 exact (attachAbandoned_unlit h).lit
  iterate 2 exact (baseLoss_unlit h).lit
  iterate 2 exact (baseDetach_unlit h).lit
  iterate 2 exact h

theorem bpresChanged_lit (level : Level) : KeepsLit (bpresChanged level) := fun {C s} h => by
  have reports : ∀ b : Bm, Unlit s → Lit C (bmReport false id { s with bm := b }) := fun b hu =>
    (bmReport_unlit false (fun v => .refl _ v) (s := { s with bm := b }) hu).lit
  unfold bpresChanged
  dsimp only
  split
  · exact h
  · split
    · exact reports _ (h.unlit_of_state (by simp [*]))
    · exact h
    · exact reports _ (h.unlit_of_state (by simp [*]))
    · exact h
    · exact h
    · exact h

/-! ### The detach sequence -/

/-- R90: the open check, entered over the granted claim. -/
theorem openCheck_lit (h : RailOk s.rba) (hs : s.bm.state = .releasing) (hg : latchGranted s = true) :
    Lit C (openCheck s) := by
  simp only [latchGranted, Bool.and_eq_true, decide_eq_true_eq] at hg
  unfold openCheck
  dsimp only
  split
  · exact ⟨fun _ => ⟨hs, fun _ => hg.2, rfl, .inr rfl⟩, h⟩
  · exact ⟨fun _ => ⟨hs, fun _ => hg.2, rfl, .inl rfl⟩, h⟩

theorem startWindow_lit : KeepsLit startWindow := fun {C s} h => by
  refine ⟨fun on => ?_, h.2⟩
  obtain ⟨state, grant, energised, -⟩ := h.1 on
  exact ⟨state, grant, energised, .inr rfl⟩

/-- BM's entry to RELEASING, up to its claim (R89). -/
def releasingFiled (s : State) : State :=
  fileLatch (bmReport false compareStream
    { s with
      bm := { s.bm with state := .releasing }
      det := { s.det with
        blink := none, energised := false, deadline := .grantWait, timer := some (s.now + 1000) } })

theorem toReleasing_eq (s : State) :
    toReleasing s =
      if latchGranted (releasingFiled s) = true then openCheck (releasingFiled s) else releasingFiled s := rfl

theorem releasingFiled_state (s : State) : (releasingFiled s).bm.state = .releasing := by
  have reported := (bmReport_changes (m := reportParts) (a := false) (by decide)
    (fun v => (compareStream_changes v).mono (by decide))
    { s with
      bm := { s.bm with state := .releasing }
      det := { s.det with
        blink := none, energised := false, deadline := .grantWait, timer := some (s.now + 1000) } }).same .bmState
      (by decide)
  exact Eq.trans ((fileLatch_changes _).same .bmState (by decide)) reported

theorem toReleasing_lit (h : Unlit s) : Lit C (toReleasing s) := by
  have filed : Unlit (releasingFiled s) :=
    fileLatch_unlit (bmReport_unlit false (fun v => (compareStream_changes v).mono (by decide)) h)
  rw [toReleasing_eq]
  split
  · exact openCheck_lit filed.2 (releasingFiled_state s) ‹_›
  · exact filed.lit

theorem giveUpLatch_unlit (o : DetachOutcome) (h : Unlit s) : Unlit (giveUpLatch o s) :=
  endAttempt_unlit o (withdrawLatch_unlit h)

theorem askConsent_lit (h : Unlit s) : Lit C (askConsent s) :=
  (h.through (askConsent_changes s) (by decide)).lit

theorem pressAttached_lit (h : Unlit s) : Lit C (pressAttached s) := by
  unfold pressAttached
  dsimp only
  split
  · exact h.lit
  · split
    · exact askConsent_lit h
    · split
      · exact toReleasing_lit h
      · exact (Unlit.through (s := { s with det := { s.det with origin := some .button, path := some .standing } }) h
          (standingRefusal_changes _) (by decide)).lit

theorem bmPress_lit : KeepsLit bmPress := fun h => by
  unfold bmPress
  split
  · exact pressAttached_lit (h.unlit_of_state (by simp [*]))
  · exact (endAttempt_unlit _ (h.unlit_of_state (by simp [*]))).lit
  · unfold pressReleasing
    split
    · exact (toClosing_unlit _ h).lit
    · exact (giveUpLatch_unlit _ (h.unlit_of_energised (by simp [*]))).lit
  all_goals exact h

theorem buttonHeld_lit : KeepsLit buttonHeld := fun {C s} h => by
  have held : ∀ b c d, Lit C { s with det := { s.det with button := b, debounce := c, hold := d } } := fun _ _ _ => h
  unfold buttonHeld
  dsimp only
  split
  · exact bmPress_lit ((held _ _ _).through (cause_changes _ _) (by decide))
  · exact held _ _ _

theorem bmLid_lit (level : Level) : KeepsLit (bmLid level) := fun h => by
  unfold bmLid
  split
  · rename_i asked
    exact (endAttempt_unlit _ (h.unlit_of_state (by simp [asked.2]))).lit
  · exact h

theorem lidReported_lit (level : Level) : KeepsLit (lidReported level) := fun h => by
  have pe : KeepsLit peForcing := fun h => h.through (peForcing_changes _) (by decide)
  have spu : KeepsLit (spuLid level) := fun h => h.through (spuLid_changes level _) (by decide)
  unfold lidReported
  split
  · exact KeepsLit.anyOrder pe spu (bmLid_lit level) h
  · split
    · exact eitherOrder_holds (spu (pe h)) (pe (spu h))
    · exact spu (pe h)

theorem magnetHeld_lit (m : Magnet) : KeepsLit (magnetHeld m) := fun {C s} h => by
  have debounced : ∀ f, Lit C { s with sfe := f } := fun _ => h
  unfold magnetHeld
  dsimp only
  split
  · exact lidReported_lit _ ((debounced _).through (breakBoth_changes _) (by decide))
  · exact lidReported_lit _ (debounced _)
  · exact debounced _

theorem lswChanged_lit (pos : LatchPos) : KeepsLit (lswChanged pos) := fun {C s} h => by
  have recorded : Lit C { s with det := { s.det with lsw := pos } } := h
  unfold lswChanged
  dsimp only
  split
  · split
    · exact startWindow_lit recorded
    · exact recorded
  · split
    · rename_i force
      simp only [inForce, Bool.and_eq_true, decide_eq_true_eq] at force
      exact (endAttempt_unlit _ (recorded.unlit_of_deadline (by simp [force.1]))).lit
    · exact recorded

theorem serveDetachConsent_lit (place : Nat) (payload : List Byte) : KeepsLit (serveDetachConsent place payload) :=
  fun {C s} h => by
  have answered : ∀ r, s.bm.state = .detachAsked → Unlit (answer place r s) := fun r hs =>
    (answer_lit place r h).unlit_of_state (by simp [hs])
  unfold serveDetachConsent
  split
  · split
    · exact answer_lit _ _ h
    · split
      · split
        · exact toReleasing_lit (answered _ ‹_›)
        · exact (endAttempt_unlit _ (answered _ ‹_›)).lit
      · exact answer_lit _ _ h
  · exact answer_lit _ _ h

theorem serveRequestDetach_lit (place : Nat) : KeepsLit (serveRequestDetach place) := fun {C s} h => by
  have answered : ∀ r d, s.bm.state ≠ .releasing → d.lsol = s.det.lsol → Unlit (answer place r { s with det := d }) :=
    fun r d hs hd => Unlit.through (s := { s with det := d }) ⟨hd.trans (h.unlit_of_state hs).1, h.2⟩
      (answer_changes place r _) (by decide)
  unfold serveRequestDetach
  split
  · split
    · exact answer_lit _ _ h
    · exact toReleasing_lit (answered _ _ (by simp [*]) rfl)
  · exact toReleasing_lit (answered _ s.det (by simp [*]) rfl)
  · exact answer_lit _ _ h

/-! ### Notices (R115, R116) -/

theorem noticeBase_lit : KeepsLit noticeBase := fun h => by
  unfold noticeBase
  split
  · exact ((h.unlit_of_state (by simp [*])).through (powerIfGranted_changes _) (by decide)).lit
  · split
    · exact h
    · exact (toPowering_unlit _ (h.unlit_of_state (by simp [*]))).lit
  · split
    · exact h
    · exact (lossOfPowerAfter_unlit (fun v => .refl _ v) (h.unlit_of_state (by simp [*]))).lit
  · split
    · exact h
    · exact (lossOfPowerAfter_unlit (fun v => .refl _ v) (h.unlit_of_state (by simp [*]))).lit
  · split <;> exact h
  · split <;> exact h
  all_goals exact h

/-- R90, R92, R114: after BM's notice LSOL is on under its grant only, whatever the grant has become. -/
theorem noticeLatch_settles (h : Lit False s) : Lit C (noticeLatch s) := by
  unfold noticeLatch
  split
  · rename_i releasing
    split
    · rename_i waits
      exact openCheck_lit h.2 releasing waits.2
    · split
      · exact (toClosing_unlit _ h).lit
      · rename_i on
        refine ⟨fun lit => ?_, h.2⟩
        obtain ⟨state, -, rest⟩ := h.1 lit
        have granted := h.2.grant.resolve_left fun none => on ⟨lit, none⟩
        exact ⟨state, fun _ => granted.2, rest⟩
  · exact (h.unlit_of_state ‹_›).lit

/-- Of three acts in any order the middle one turns `P` into `Q`, and the others keep both. -/
theorem anyOrder_turns_middle {P Q : State → Prop} {f g k : State → State} (hcP : ∀ v, P v → P v.nextChoice)
    (hcQ : ∀ v, Q v → Q v.nextChoice) (hg : ∀ v, P v → Q (g v)) (hfP : ∀ v, P v → P (f v)) (hfQ : ∀ v, Q v → Q (f v))
    (hkP : ∀ v, P v → P (k v)) (hkQ : ∀ v, Q v → Q (k v)) (hs : P s) : Q (anyOrder f g k s) := by
  have one := hcP _ hs
  have two := hcP _ one
  unfold anyOrder
  split
  · exact eitherOrder_holds (hkQ _ (hg _ (hcP _ (hfP _ one)))) (hg _ (hkP _ (hcP _ (hfP _ one))))
  · split
    · exact eitherOrder_holds (hkQ _ (hfQ _ (hcQ _ (hg _ two)))) (hfQ _ (hkQ _ (hcQ _ (hg _ two))))
    · exact eitherOrder_holds (hg _ (hfP _ (hcP _ (hkP _ two)))) (hfQ _ (hg _ (hcP _ (hkP _ two))))

/-- R115: where the LATCH grant of a filed claim has changed, BM's notice settles the latch; where it has not, it stands. -/
theorem noticeAll_lit (old : Grants) (h : Lit False s)
    (hsame : ¬ (s.rba.latch.isSome = true ∧ s.rba.grants.latch ≠ old.latch) → Lit C s) : Lit C (noticeAll old s) := by
  unfold noticeAll
  dsimp only
  have base : KeepsLit (if (s.rba.base.isSome && decide (s.rba.grants.base ≠ old.base)) = true then noticeBase else id) :=
    KeepsLit.when _ noticeBase_lit
  by_cases hl : (s.rba.latch.isSome && decide (s.rba.grants.latch ≠ old.latch)) = true
  · rw [if_pos hl]
    split
    · exact anyOrder_turns_middle (P := Lit False) (fun _ h => h) (fun _ h => h) (fun _ => noticeLatch_settles)
        (fun _ => base) (fun _ => base) (fun _ => noticePen_lit) (fun _ => noticePen_lit) h
    · exact noticePen_lit (noticeLatch_settles (base h))
  · rw [if_neg hl]
    have stands : Lit C s := hsame (by simpa using hl)
    split
    · exact KeepsLit.anyOrder base (fun h => h) noticePen_lit stands
    · exact noticePen_lit (base stands)

theorem handCapacity_lit : KeepsLit handCapacity := fun {C s} h => by
  have rail : RailOk ({ s.rba with capacity := capacityOf s.sm.supply s.sm.thermal } : Rba).compute := compute_railOk h.2.1
  refine noticeAll_lit _ ⟨fun on => ?_, rail⟩ fun same => ⟨fun on => ?_, rail⟩ <;>
    obtain ⟨state, grant, rest⟩ := h.1 on
  · exact ⟨state, False.elim, rest⟩
  refine ⟨state, fun hc => ?_, rest⟩
  have filed : s.rba.latch.isSome = true := (h.2.grant.resolve_left fun none => by simp [grant hc] at none).1
  exact (not_ne_iff.mp fun new => same ⟨filed, new⟩).trans (grant hc)

theorem handOn_lit (old : Sm) (vsys : Nat) (temp : Int) : KeepsLit (handOn old vsys temp) := fun {C s} h => by
  have reports : KeepsLit (reportBands old vsys temp) := fun h => h.through (reportBands_changes _ _ _ _) (by decide)
  have bands : Lit C (handBands old vsys temp s) := by
    unfold handBands
    split
    · exact reports h
    · exact KeepsLit.anyOrder pdcSupply_lit (fun h => h.through (spuSupply_changes _) (by decide)) reports h
  exact (handCapacity_lit bands).through (offerSupply_changes _) (by decide)

theorem scanCompleted_lit (vsys : Nat) (temp : Int) (pen : Nat) : KeepsLit (scanCompleted vsys temp pen) :=
  fun {C s} h => by
  have read : ∀ c m, Lit C (penReading c { s with sm := m }) := fun c _ => penReading_lit c h
  unfold scanCompleted
  dsimp only
  split
  · exact read _ _
  · exact handOn_lit _ _ _ (read _ _)

/-! ### Requests and the link -/

theorem serveSetPenCharging_lit (place : Nat) (payload : List Byte) : KeepsLit (serveSetPenCharging place payload) :=
  fun h => by
  unfold serveSetPenCharging
  split
  · exact answer_lit _ _ h
  · exact KeepsLit.raceLc (answer_lit _ _) (replacePen_lit _) h

theorem restoreOwners_lit : KeepsLit restoreOwners := fun h => by
  have tuning : KeepsLit (replaceTuning defaultTuning) := fun h => h.through (replaceTuning_changes _ _) (by decide)
  have sleep : KeepsLit restoreSleep := fun h => h.through (restoreSleep_changes _) (by decide)
  unfold restoreOwners
  dsimp only
  split
  · exact KeepsLit.anyOrder tuning sleep (replacePen_lit _) h
  · exact replacePen_lit _ (sleep (tuning h))

theorem serveRestoreDefaults_lit (place : Nat) : KeepsLit (serveRestoreDefaults place) := fun h =>
  answer_lit _ _ (((restoreOwners_lit h).through (restorePolicies_changes _) (by decide)).through
    (requestCommit_changes _) (by decide))

theorem serveAcceptBase_lit (place : Nat) : KeepsLit (serveAcceptBase place) := fun {_ s} h => by
  by_cases refused : s.bm.state = .refused
  · exact (serveAcceptBase_unlit place (h.unlit_of_state (by simp [refused]))).lit
  · rw [serveAcceptBase_elsewhere refused]
    exact answer_lit _ _ h

/-- Five requests reach the latch or the rail; an owner's service of any other leaves them. -/
theorem serve_lit (place : Nat) (kind : ReqKind) (payload : List Byte) : KeepsLit (serve place kind payload) :=
  fun h => by
  cases kind with
  | acceptBase => exact serveAcceptBase_lit _ h
  | requestDetach => exact serveRequestDetach_lit _ h
  | detachConsent => exact serveDetachConsent_lit _ _ h
  | setPenCharging => exact serveSetPenCharging_lit _ _ h
  | restoreDefaults => exact serveRestoreDefaults_lit _ h
  | identify => exact h.through (serveIdentify_changes _ _) (by decide)
  | subscribe => exact h.through (serveSubscribe_changes _ _ _) (by decide)
  | unsubscribe => exact h.through (serveUnsubscribe_changes _ _ _) (by decide)
  | resetPart => exact h.through (serveResetPart_changes _ _) (by decide)
  | getPosture => exact h.through (serveGetPosture_changes _ _) (by decide)
  | getVectors => exact h.through (serveGetVectors_changes _ _) (by decide)
  | setRotationLock => exact h.through (serveSetRotationLock_changes _ _ _) (by decide)
  | setTuning => exact h.through (serveSetTuning_changes _ _ _) (by decide)
  | calibrateHinge => exact h.through (serveCalibrateHinge_changes _ _ _) (by decide)
  | listBases => exact h.through (serveListBases_changes _ _) (by decide)
  | forgetBase => exact h.through (serveForgetBase_changes _ _ _) (by decide)
  | setBaseOffset => exact h.through (serveSetBaseOffset_changes _ _ _) (by decide)
  | setBasePolicy => exact h.through (serveSetBasePolicy_changes _ _ _) (by decide)
  | setDetachPolicy => exact h.through (serveSetDetachPolicy_changes _ _ _) (by decide)
  | getSupply => exact h.through (serveGetSupply_changes _ _) (by decide)
  | getPen => exact h.through (serveGetPen_changes _ _) (by decide)
  | hostState => exact h.through (serveHostState_changes _ _ _) (by decide)
  | getSleep => exact h.through (serveGetSleep_changes _ _) (by decide)
  | setSleepPolicy => exact h.through (serveSetSleepPolicy_changes _ _ _) (by decide)
  | setWakeCauses => exact h.through (serveSetWakeCauses_changes _ _ _) (by decide)
  | getConditions => exact h.through (serveGetConditions_changes _ _) (by decide)
  | getHistory => exact h.through (serveGetHistory_changes _ _ _) (by decide)
  | clearConditions => exact h.through (serveClearConditions_changes _ _ _) (by decide)
  | saveSettings => exact h.through (serveSaveSettings_changes _ _) (by decide)

theorem hand_lit (sl : Slot) : KeepsLit (hand sl) := fun {_ s} h =>
  serve_lit _ _ _ (s := { s with lc := { s.lc with slots := setPhase sl.place .taken s.lc.slots } }) h

theorem handWaiting_lit (n : Nat) : KeepsLit (handWaiting n) := by
  induction n with
  | zero => exact fun h => h
  | succ n ih =>
    intro C s h
    unfold handWaiting
    split
    · exact ih (hand_lit _ h)
    · exact h

theorem goodFrame_lit (kind : Nat) (tag : Byte) (payload : List Byte) : KeepsLit (goodFrame kind tag payload) :=
  fun {C s} h => by
  have refused : ∀ item lc, Lit C (refuse item { s with lc := lc }) := fun item lc =>
    Lit.through (s := { s with lc := lc }) h (refuse_changes item _) (by decide)
  have handed : ∀ sl lc, Lit C (hand sl { s with lc := lc }) := fun sl lc => hand_lit sl (s := { s with lc := lc }) h
  unfold goodFrame
  dsimp only
  split
  · exact refused _ _
  · split
    · exact refused _ _
    · split
      · exact refused _ _
      · unfold accept
        dsimp only
        split
        · exact handed _ _
        · exact h

theorem rxByte_lit (b : Byte) : KeepsLit (rxByte b) := fun h => by
  unfold rxByte
  split
  · exact h
  · exact h
  · exact h
  · split
    · unfold bodyFrame
      split
      · exact goodFrame_lit _ _ _ h
      · exact h.through (badFrame_changes _) (by decide)
    · exact h.through (badFrame_changes _) (by decide)

/-! ### Resets -/

/-- R100, R119: every block stands at its reset values. -/
theorem blank_lit (s : State) : Lit C (blank s) :=
  ⟨fun on => (nomatch on), fun _ claim => (nomatch claim), rfl⟩

theorem endReset_lit (kind : ResetKind) (s : State) : Lit C (endReset kind s) := by
  have starts : ∀ corrupt u, Lit C u → Lit C (startBlocks corrupt u) := fun corrupt u hu =>
    hu.through (startBlocks_changes corrupt u) (by decide)
  exact starts _ _ ⟨fun on => (nomatch on), fun _ claim => (nomatch claim), rfl⟩

theorem holdReset_lit (kind : ResetKind) (s : State) : Lit C (holdReset kind s) := blank_lit s

theorem beginReset_lit (kind : ResetKind) (s : State) : Lit C (beginReset kind s) := by
  unfold beginReset
  split
  · exact holdReset_lit kind s
  · exact endReset_lit kind s

theorem softReset_lit (s : State) : Lit C (softReset s) := by
  unfold softReset
  split
  · exact holdReset_lit _ _
  · split
    · exact endReset_lit _ _
    · exact holdReset_lit _ _

theorem assertReset_lit : KeepsLit assertReset := fun h => by
  unfold assertReset
  split
  · exact h
  · exact holdReset_lit _ _
  · split <;> exact holdReset_lit _ _

theorem releaseReset_lit : KeepsLit releaseReset := fun h => by
  unfold releaseReset
  split
  · exact endReset_lit _ _
  · exact h

theorem frameSent_lit : KeepsLit frameSent := fun {C s} h => by
  have next : ∀ lc, Lit C (afterFrame { s with lc := lc }) := fun lc =>
    (handWaiting_lit 4 (s := { s with lc := lc }) h).through (kick_changes _) (by decide)
  unfold frameSent
  split
  · exact h
  · dsimp only
    split
    · exact softReset_lit _
    · exact next _
  · exact next _
  · exact next _

/-! ### Commands -/

theorem whileRunning_lit {f : State → State} (hf : KeepsLit f) : KeepsLit (whileRunning f) := fun h => by
  unfold whileRunning
  split
  · exact hf h
  · exact h
  · exact hf (endReset_lit _ _)

/-- A pin that changes in a reset is recorded only (R176). -/
theorem onInput_lit {record f : State → State} (hr : KeepsLit record) (hf : KeepsLit f) : KeepsLit (onInput record f) :=
  fun {C s} h => by
  rcases onInput_cases record f s with ⟨-, e⟩ | ⟨k, -, -, e⟩ | ⟨k, -, -, e | e⟩ <;> rw [e]
  · exact hf h
  · exact hr h
  · exact hr (s := s.nextChoice) h
  · exact hf (endReset_lit _ _)

theorem onEnd_lit {f : State → State} (inFlight : State → Bool) (hf : KeepsLit f) :
    KeepsLit (fun s => onEnd (inFlight s) f s) := fun h => by
  dsimp only
  unfold onEnd
  split
  · exact hf h
  · exact h

/-- An expiry that keeps the latch in the states in which its timer runs. -/
theorem onExpiry_lit {f : State → State} (timer : State → Timer)
    (hf : ∀ {C s} d, timer s = some d → Lit C s → Lit C (f (runTo d s))) : KeepsLit (fun s => onExpiry (timer s) f s) :=
  fun {C s} h => by
  cases ht : timer s with
  | none => simpa only [ht, onExpiry] using h
  | some d => simpa only [ht, onExpiry] using hf d ht h

theorem whenIn_some {here : Bool} {t : Timer} {d : Nat} (h : whenIn here t = some d) : here = true := by
  unfold whenIn at h
  split at h
  · assumption
  · cases h

theorem deadlineTimer_some {due : Deadline} {d : Nat} (h : deadlineTimer due s = some d) :
    s.det.deadline = due ∧ deadlineState due = some s.bm.state := by
  simpa [inForce] using whenIn_some h

theorem runTo_lit (d : Nat) (h : Lit C s) : Lit C (runTo d s) := h

theorem exec_lit (c : Instr) (h : Lit C s) : ∃ t, exec c s = .next t ∧ Lit C t := by
  have run : ∀ {f}, KeepsLit f → Lit C (whileRunning f s) := fun hf => whileRunning_lit hf h
  have leaves : ∀ {m : List Part} {f : State → State}, (∀ u, Changes m u (f u)) →
      (∀ p ∈ [.bmState, .attempt, .lsol] ++ rbaParts, p ∉ m) → KeepsLit f := fun c hm _ _ hu => hu.through (c _) hm
  have expiry : ∀ {f} (timer : State → Timer), KeepsLit f → Lit C (whileRunning (fun u => onExpiry (timer u) f u) s) :=
    fun timer hf => run (onExpiry_lit timer fun d _ hu => hf (runTo_lit d hu))
  have unlit : ∀ {f} (here : BmState) (timer : State → Timer), here ≠ .releasing →
      (∀ {u}, Unlit u → Unlit (f u)) →
      Lit C (whileRunning (fun u => onExpiry (whenIn (decide (u.bm.state = here)) (timer u)) f u) s) :=
    fun here timer hne hf => run (onExpiry_lit (fun u => whenIn (decide (u.bm.state = here)) (timer u)) fun {_ u} d hd hu => by
      have state : (runTo d u).bm.state = here := of_decide_eq_true (whenIn_some hd)
      exact (hf ((runTo_lit d hu).unlit_of_state (state ▸ hne))).lit)
  have due : ∀ {f} (d : Deadline), (∀ {C u}, u.det.deadline = d → Lit C u → Lit C (f u)) →
      Lit C (whileRunning (fun u => onExpiry (deadlineTimer d u) f u) s) := fun d hf =>
    run (onExpiry_lit _ fun _ hd hu => hf (deadlineTimer_some hd).1 (runTo_lit _ hu))
  have ends : ∀ {f} (inFlight : State → Bool), KeepsLit f → Lit C (whileRunning (fun u => onEnd (inFlight u) f u) s) :=
    fun inFlight hf => run (onEnd_lit inFlight hf)
  have pin : ∀ {record f : State → State}, (∀ {C u}, Lit C u → Lit C (record u)) → KeepsLit f →
      Lit C (onInput record f s) := fun hr hf => onInput_lit hr hf h
  have request : ∀ kind tag payload, Lit C (whileRunning (request kind tag payload) s) :=
    fun _ _ _ => run (goodFrame_lit _ _ _)
  cases c with
  | powerOn => exact ⟨_, rfl, beginReset_lit _ _⟩
  | brownout => exact ⟨_, rfl, beginReset_lit _ _⟩
  | nrstAsserted => exact ⟨_, rfl, assertReset_lit h⟩
  | nrstReleased => exact ⟨_, rfl, releaseReset_lit h⟩
  | displayPeriodExpiry => exact ⟨_, rfl, expiry _ (leaves readDue_changes (by decide))⟩
  | displayReadSample x y z => exact ⟨_, rfl, ends _ (leaves (readSampled_changes _) (by decide))⟩
  | displayReadFailure cause => exact ⟨_, rfl, ends _ (leaves (readFailed_changes _) (by decide))⟩
  | displayReadTimeout =>
    refine ⟨_, rfl, run fun hu => ?_⟩
    unfold onEnd
    split
    · exact onExpiry_lit (fun u => u.sfe.readLimit)
        (fun d _ hv => (runTo_lit d hv).through (readFailed_changes 3 _) (by decide)) hu
    · exact hu
  | magnetLevelChange magnet level =>
    exact ⟨_, rfl, pin (fun hu => hu) (leaves (magnetChanged_changes _ _) (by decide))⟩
  | hallDebounceExpiry magnet => exact ⟨_, rfl, expiry _ (magnetHeld_lit _)⟩
  | bpresChange level => exact ⟨_, rfl, pin (fun hu => hu) (bpresChanged_lit _)⟩
  | baseSettleTimerExpiry => exact ⟨_, rfl, unlit .settling _ (by decide) (toPowering_unlit 120)⟩
  | baseGone => exact ⟨_, rfl, expiry _ fun {_ u} hu => baseIsGone_lit (s := { u with bm := _ }) hu⟩
  | queryTimerExpiry => exact ⟨_, rfl, unlit .identifying _ (by decide) queryExpired_unlit⟩
  | cyclingTimerExpiry =>
    exact ⟨_, rfl, unlit .identifying _ (by decide) fun hu => hu.through (cyclingExpired_changes _) (by decide)⟩
  | ident serial model draw revision =>
    refine ⟨_, rfl, run fun {_ u} hu => ?_⟩
    by_cases hi : u.bm.state = .identifying
    · exact (takeIdent_unlit _ (hu.unlit_of_state (by simp [hi]))).lit
    · have ignored : takeIdent ⟨serial, model, draw, revision⟩ u = u := if_neg fun k => hi k.1
      rw [ignored]
      exact hu
  | baseSample x y z => exact ⟨_, rfl, run (leaves (baseSampleArrived_changes _) (by decide))⟩
  | quiesced => exact ⟨_, rfl, run (leaves streamPaused_changes (by decide))⟩
  | quiesceTimerExpiry => exact ⟨_, rfl, expiry _ (leaves streamPaused_changes (by decide))⟩
  | baseLinkRecordDiscard => exact ⟨_, rfl, h⟩
  | dbtnChange level =>
    exact ⟨_, rfl, pin (fun hu => hu) (leaves (dbtnChanged_changes _) (by decide))⟩
  | buttonHoldExpiry => exact ⟨_, rfl, expiry _ buttonHeld_lit⟩
  | consentTimerExpiry =>
    refine ⟨_, rfl, due .consent fun hd hu => ?_⟩
    have off := hu.unlit_of_deadline (by simp [hd])
    unfold consentExpired
    split
    · exact (endAttempt_unlit _ off).lit
    · exact toReleasing_lit off
  | grantWaitExpiry =>
    exact ⟨_, rfl, due .grantWait fun hd hu => (giveUpLatch_unlit _ (hu.unlit_of_deadline (by simp [hd]))).lit⟩
  | lswChange pos => exact ⟨_, rfl, pin (fun hu => hu) (lswChanged_lit _)⟩
  | openCheckExpiry =>
    exact ⟨_, rfl, due .openCheck fun _ hu => (endStuck_unlit 1 (withdrawLatch_unlit hu.darken)).lit⟩
  | releaseWindowExpiry => exact ⟨_, rfl, due .window fun _ hu => (toClosing_unlit _ hu).lit⟩
  | closeCheckExpiry =>
    exact ⟨_, rfl, due .closeCheck fun hd hu => (endStuck_unlit 2 (hu.unlit_of_deadline (by simp [hd]))).lit⟩
  | blinkTimerExpiry => exact ⟨_, rfl, expiry _ (leaves blinkEnded_changes (by decide))⟩
  | scanPeriodExpiry => exact ⟨_, rfl, expiry _ (leaves scanDue_changes (by decide))⟩
  | scanCompletion vsys temp pen => exact ⟨_, rfl, ends _ (scanCompleted_lit _ _ _)⟩
  | pdetChange level => exact ⟨_, rfl, pin (fun hu => hu) (leaves (pdetChanged_changes _) (by decide))⟩
  | penSettleTimerExpiry => exact ⟨_, rfl, expiry _ (leaves penSettled_changes (by decide))⟩
  | penRemoval => exact ⟨_, rfl, expiry _ penRemoved_lit⟩
  | pollTimerExpiry => exact ⟨_, rfl, expiry _ (leaves startPoll_changes (by decide))⟩
  | responseTimerExpiry => exact ⟨_, rfl, expiry _ pollUnanswered_lit⟩
  | penStatus intact status => exact ⟨_, rfl, run (penStatusArrived_lit _ _)⟩
  | prechargeTimerExpiry => exact ⟨_, rfl, run prechargeExpired_lit⟩
  | safetyTimerExpiry => exact ⟨_, rfl, run safetyExpired_lit⟩
  | triggerTimerExpiry trigger => exact ⟨_, rfl, expiry _ (leaves (mature_changes _) (by decide))⟩
  | lidConfirmTimerExpiry => exact ⟨_, rfl, expiry _ (leaves lidConfirmed_changes (by decide))⟩
  | wakeTimerExpiry => exact ⟨_, rfl, expiry _ (leaves wakeExpired_changes (by decide))⟩
  | gapTimerExpiry => exact ⟨_, rfl, expiry _ (leaves nextAttempt_changes (by decide))⟩
  | uptimeTick => exact ⟨_, rfl, expiry (fun u => some u.nextSecond) (leaves tickUptime_changes (by decide))⟩
  | lengthByteAbandon byte => exact ⟨_, rfl, run (leaves (lengthAbandon_changes _) (by decide))⟩
  | rxGapTimeout => exact ⟨_, rfl, expiry _ (leaves gapExpired_changes (by decide))⟩
  | frameReject => exact ⟨_, rfl, run (leaves badFrame_changes (by decide))⟩
  | unknownKindFrame kind tag payload => exact ⟨_, rfl, run (goodFrame_lit _ _ _)⟩
  | txFrameDone => exact ⟨_, rfl, run frameSent_lit⟩
  | commitWriteDone faulty => exact ⟨_, rfl, run (leaves (writeDone_changes _) (by decide))⟩
  | commitVerifyDone => exact ⟨_, rfl, run (leaves verifyDone_changes (by decide))⟩
  | rxdByte byte => exact ⟨_, rfl, run (rxByte_lit _)⟩
  | _ => exact ⟨_, rfl, request _ _ _⟩

/-- Settles O43: a command finds the latch as it must stand and leaves it so (`exec_lit`), an idle millisecond passes it by,
and R90's law is its first clause. -/
theorem stepKeepsLatchLaw : Obligations.StepKeepsLatchLaw := by
  refine ⟨fun s t h e => ?_, fun s h on => ?_⟩
  · rw [latchHolds_iff] at h ⊢
    unfold step at e
    split at e
    · cases e
      exact whileRunning_lit (f := advance 1) (fun hu => hu) h
    · rename_i c rest _
      obtain ⟨u, hexec, hu⟩ := exec_lit (s := { s with pending := rest }) c h
      cases hexec.symm.trans e
      exact hu
  · obtain ⟨lit, -⟩ := h
    obtain ⟨state, grant, -⟩ := lit on
    exact ⟨state, grant⟩

end Sys2Proof.Machine

/-!
The debounce of DBTN, and the end of the blink (R81, R82).
-/
namespace Sys2Proof.Machine

variable {s : State}

/-! ### Pin DBTN and the hold time (R81) -/

theorem exec_dbtnChange (level : Level) (h : s.held = none) :
    exec (.dbtnChange level) s = .next (dbtnChanged level s) :=
  congrArg Host.Outcome.next (onInput_running h)

theorem dbtnChanged_same : dbtnChanged s.det.dbtn s = s := if_pos rfl

theorem dbtnChanged_steady {level : Level} (hl : level ≠ s.det.dbtn) (hd : s.det.debounce = .steady) :
    dbtnChanged level s =
      { s with det := { s.det with dbtn := level, debounce := .changing, hold := some (s.now + 50) } } := by
  simp only [dbtnChanged, if_neg hl, hd]

theorem dbtnChanged_changing {level : Level} (hl : level ≠ s.det.dbtn) (hd : s.det.debounce = .changing) :
    dbtnChanged level s = { s with det := { s.det with dbtn := level, debounce := .steady, hold := none } } := by
  simp only [dbtnChanged, if_neg hl, hd]

theorem exec_buttonHoldExpiry {d : Nat} (h : s.held = none) (hd : s.det.hold = some d) :
    exec .buttonHoldExpiry s = .next (buttonHeld (runTo d s)) :=
  congrArg Host.Outcome.next (expiry_running (fun u => u.det.hold) buttonHeld h hd)

theorem buttonHeld_released (h : s.det.dbtn = .released) :
    buttonHeld s = { s with det := { s.det with button := .released, debounce := .steady, hold := none } } := by
  simp only [buttonHeld, h]

/-- The detach record of a debounced press (R81). -/
def Det.pressed (d : Det) : Det := { d with button := .asserted, debounce := .steady, hold := none }

theorem buttonHeld_asserted (h : s.det.dbtn = .asserted) : buttonHeld s = press { s with det := s.det.pressed } := by
  simp only [buttonHeld, h, Det.pressed]

/-- Settles O38: the level and the debounce state decide a change of DBTN, the level decides the end of the hold time, and a
timer that does not run has no expiry. -/
theorem detachButtonIsDebounced : Obligations.DetachButtonIsDebounced := by
  intro level s h
  refine ⟨?_, ?_, ?_, ?_, ?_, ?_, ?_⟩
  · rintro rfl
    rw [exec_dbtnChange _ h, dbtnChanged_same]
  · intro hl hd
    rw [exec_dbtnChange _ h, dbtnChanged_steady hl hd]
  · intro hl hd
    rw [exec_dbtnChange _ h, dbtnChanged_changing hl hd]
  · intro d hd released
    rw [exec_buttonHoldExpiry h hd]
    exact congrArg Host.Outcome.next (buttonHeld_released (s := runTo d s) released)
  · intro hd
    exact congrArg Host.Outcome.next (expiry_idle (fun u => u.det.hold) buttonHeld h hd)
  · intro d hd
    exact congrArg Host.Outcome.next (expiry_running (fun u => u.det.blink) blinkEnded h hd)
  · intro hd
    exact congrArg Host.Outcome.next (expiry_idle (fun u => u.det.blink) blinkEnded h hd)

end Sys2Proof.Machine

/-!
SET_DETACH_POLICY (R99).
-/
namespace Sys2Proof.Machine

variable {s : State} {place : Nat} {payload : List Byte}

theorem serveSetDetachPolicy_read {asked : DetachPolicy} (h : readDetach (detachOfPayload payload) = some asked) :
    serveSetDetachPolicy place payload s =
      answer place (Reply.clamped (decide (clampDetach asked ≠ asked)) (.detachPolicy (clampDetach asked)))
        { s with settings := { s.settings with detach := clampDetach asked } } := by
  simp only [serveSetDetachPolicy, h]

theorem serveSetDetachPolicy_unknown (h : readDetach (detachOfPayload payload) = none) :
    serveSetDetachPolicy place payload s = answer place (Reply.code .badValue) s := by
  simp only [serveSetDetachPolicy, h]

/-- 10.8: a byte that names ALLOW or DENY. -/
theorem consentOf_known {b : Byte} (h : b.toNat ≤ 1) :
    consentOf b.toNat = some (if b = 0#8 then Consent.allow else .deny) := by
  obtain rfl | rfl : b = 0#8 ∨ b = 1#8 := by bv_omega
  · rfl
  · rfl

theorem consentOf_unknown {n : Nat} (h : 1 < n) : consentOf n = none :=
  match n, h with
  | _ + 2, _ => rfl

theorem readDetach_unknown {r : RawDetach} (h : 1 < r.standing ∨ 1 < r.timeoutAction) : readDetach r = none := by
  unfold readDetach
  obtain h | h := h
  · rw [consentOf_unknown h]
  · rw [consentOf_unknown h]
    cases consentOf r.standing <;> rfl

/-- The reply says CLAMPED where a time is not as it was asked. -/
theorem clampDetach_ne_iff (p : DetachPolicy) :
    clampDetach p ≠ p ↔ ¬ ((clampDetach p).consentTimeout = p.consentTimeout ∧ (clampDetach p).window = p.window) := by
  refine not_congr ⟨fun e => ⟨congrArg _ e, congrArg _ e⟩, fun ⟨timeout, window⟩ => ?_⟩
  cases p
  exact congrArg₂ (DetachPolicy.mk _ _) timeout window

/-- R99: RESTORE_DEFAULTS sets the detach policy back to its defaults. -/
theorem serveRestoreDefaults_detach (place : Nat) (s : State) :
    (serveRestoreDefaults place s).settings.detach = defaultDetach := by
  unfold serveRestoreDefaults
  rw [answer_settings]
  exact (requestCommit_changes _).same .detachPolicy (by decide)

/-- Settles O42: the two policy bytes decide whether the payload is a policy, and the clamp gives the rest. -/
theorem detachPolicyRequest : Obligations.DetachPolicyRequest := by
  intro tag a b c0 c1 w0 w1 s p timeout window consent new clamped
  refine ⟨fun h ha hb => ?_, fun h bad => ?_, fun h => ⟨_, exec_request_ready h rfl, serveRestoreDefaults_detach _ _⟩⟩
  · let asked : DetachPolicy := ⟨consent a, consent b, timeout, window⟩
    have read : readDetach (detachOfPayload p) = some asked := by
      show (match consentOf a.toNat, consentOf b.toNat with
        | some st, some ta => some (⟨st, ta, timeout, window⟩ : DetachPolicy)
        | _, _ => none) = _
      rw [consentOf_known ha, consentOf_known hb]
    have reply : Reply.clamped (decide (clampDetach asked ≠ asked)) (.detachPolicy (clampDetach asked)) =
        { result := if clamped then .clamped else .ok, content := .detachPolicy new } :=
      congrArg (Reply.mk · _)
        (if_congr (decide_eq_true_iff.trans (clampDetach_ne_iff asked)) rfl rfl)
    exact exec_request_replied (k := .setDetachPolicy)
      (u := fun u => { u with settings := { u.settings with detach := clampDetach asked } }) h rfl
      (reply ▸ serveSetDetachPolicy_read read) rfl
  · exact exec_request_answered (k := .setDetachPolicy) h rfl (serveSetDetachPolicy_unknown (readDetach_unknown bad))

end Sys2Proof.Machine

/-!
The end of an attempt (R82, R93, R98), as what it leaves: BM back in ATTACHED over a base that has its supply
(`attemptEnded`), the base powered afresh over one that has lost it (`poweredAfresh`), and in both cases the conditions
that rise on the way.

An attempt ends some acts after the command that ends it: a claim is withdrawn first, a reply is made. `Leads u w` says that
`w` follows `u` by acts that leave what the end is measured by.
-/
namespace Sys2Proof.Machine

open Sys2Proof.Claims

variable {s t u v w x : State} {o : DetachOutcome} {first : State → State} {e : Event}

/-! ### The acts before the end -/

/-- What the acts before the end of an attempt may change. -/
def leadParts : List Part :=
  [.assembler, .button, .lsw, .bmState, .attempt, .lsol, .claims] ++ reportParts ++ noticeParts

/-- `w` follows `u` by acts that leave the time, the active base, its claim, the blink and the history, and take no event
class from LC. -/
structure Leads (u w : State) : Prop where
  frame : Changes leadParts u w
  base : w.rba.base = u.rba.base
  taking : ∀ {cls}, Taking cls u.lc → Taking cls w.lc

theorem Leads.refl (s : State) : Leads s s := ⟨.refl _ s, rfl, id⟩

theorem Leads.trans (h : Leads u v) (g : Leads v w) : Leads u w :=
  ⟨h.frame.trans g.frame, g.base.trans h.base, fun k => g.taking (h.taking k)⟩

theorem Leads.of_told {m : List Part} (c : Changes m s t) (hm : m ⊆ leadParts) (hbase : t.rba.base = s.rba.base)
    (told : Told s.lc t.lc) : Leads s t := ⟨c.mono hm, hbase, told.taking⟩

theorem Leads.now (h : Leads u w) : w.now = u.now := h.frame.same .now (by decide)

theorem Leads.active (h : Leads u w) : w.bm.active = u.bm.active := h.frame.same .active (by decide)

theorem Leads.blink (h : Leads u w) : w.det.blink = u.det.blink := h.frame.same .blink (by decide)

theorem withdrawLatch_leads (s : State) : Leads s (withdrawLatch s) :=
  have r := withdrawLatch_relayed s
  .of_told (withdrawLatch_changes s) (by decide) (withdrawLatch_claims s).2 r.told

/-- R90, R94: LSOL goes off, the deadline's timer stops, and the LATCH claim is withdrawn. -/
def latchOff (s : State) : State := withdrawLatch { s with det := { s.det with lsol := false, timer := none } }

theorem latchOff_leads (s : State) : Leads s (latchOff s) := by
  refine Leads.trans (v := { s with det := { s.det with lsol := false, timer := none } }) ⟨⟨fun p hp => ?_⟩, rfl, id⟩
    (withdrawLatch_leads _)
  cases p <;> first | rfl | exact absurd (by decide) hp

theorem latchOff_det (s : State) : (latchOff s).det = { s.det with lsol := false, timer := none } :=
  (withdrawLatch_relayed { s with det := { s.det with lsol := false, timer := none } }).frame.det_eq (by decide)

/-! ### History and flags -/

/-- The latched flags and the condition history are the same. -/
def SameHistory (s t : State) : Prop :=
  t.cm.latched = s.cm.latched ∧ t.cm.ring = s.cm.ring ∧ t.cm.next = s.cm.next

theorem SameHistory.refl (s : State) : SameHistory s s := ⟨rfl, rfl, rfl⟩

theorem SameHistory.trans (h : SameHistory s t) (g : SameHistory t u) : SameHistory s u :=
  ⟨g.1.trans h.1, g.2.1.trans h.2.1, g.2.2.trans h.2.2⟩

theorem SameHistory.of_changes {m : List Part} (c : Changes m s t) (hm : ∀ p ∈ [Part.latched, .history], p ∉ m) :
    SameHistory s t := ⟨c.same .latched (hm _ (by decide)), c.history_eq (hm _ (by decide))⟩

theorem sameHistory_kept (s : State) : Kept (SameHistory s) := fun r h => h.trans (.of_changes r.frame (by decide))

theorem Leads.history (h : Leads u w) : SameHistory u w := .of_changes h.frame (by decide)

/-- An occurrence condition that rises appends one record and sets its latched flag (R165, R170). -/
theorem Rose.through {c : Cond} {detail : Nat} (occurs : c.isState = false) (h : Rose c detail s t)
    (hs : SameHistory u s) (ht : SameHistory t v) : Rose c detail u v := by
  obtain ⟨flag, -, next, r, ring, cond, what, seq, earlier⟩ := h
  obtain ⟨-, ring', next'⟩ := hs
  obtain ⟨vlatched, vring, vnext⟩ := ht
  refine ⟨vlatched ▸ flag, fun k => by simp [occurs] at k, by rw [vnext, next, next'], r, by rw [vring, ring, ring'], cond,
    what, seq.trans next', earlier⟩

theorem rise_rose_of_occurrence {c : Cond} (occurs : c.isState = false) (detail : Nat) (s : State) :
    Rose c detail s (rise c detail s) := rise_rose fun k => by simp [occurs] at k

theorem bitHas_bitAdd_of_set {n i j : Nat} {b : BitVec n} (h : bitHas b i = true) : bitHas (bitAdd b j) i = true := by
  have hi : b.getLsbD i = true := h
  simp [bitHas, bitAdd, hi]

/-- R169: a rise leaves every other latched flag as it is. -/
theorem rise_keeps_latched {c : Cond} {detail i : Nat} (h : bitHas s.cm.latched i = true) :
    bitHas (rise c detail s).cm.latched i = true := by
  unfold rise
  split
  · exact h
  · rw [offer_cm]
    exact bitHas_bitAdd_of_set h

/-! ### What is told at the end -/

/-- What reaches CM and LC before BM tells the end of an attempt: a rise, or nothing. -/
structure Telling (first : State → State) : Prop where
  tells : Tells first
  told : ∀ v, Told v.lc (first v).lc

theorem telling_id : Telling id := ⟨fun v => .refl _ v, fun v => .refl v.lc⟩

theorem telling_rise (c : Cond) (detail : Nat) : Telling (rise c detail) := ⟨rise_changes c detail, rise_told c detail⟩

theorem Telling.det (h : Telling first) (v : State) : (first v).det = v.det := (h.tells v).det_eq (by decide)

theorem Telling.atEnd (h : Telling first) (o : DetachOutcome) (serial : Option Serial) : Telling (tellEnd first o serial) :=
  ⟨tellEnd_tells h.tells o serial, fun v => (h.told v).trans (offer_told _ _)⟩

/-- R98: DETACH_RESULT carries the attempt's origin and path. -/
theorem tellEnd_waits (h : Telling first) {serial : Option Serial} (taking : Taking .detach v.lc) :
    Waits (.detachResult o v.det.origin v.det.path serial) (tellEnd first o serial v).lc := by
  rw [← h.det v]
  exact offer_waits rfl ((h.told v).taking taking)

theorem tellEnd_history (serial : Option Serial) (v : State) : SameHistory (first v) (tellEnd first o serial v) :=
  .of_changes (offerResult_changes o serial _) (by decide)

/-- What a message turns and an act keeps, their race turns. -/
theorem raceLc_turns {P Q : State → Prop} {emit act : State → State} (hc : ∀ v, P v → P v.nextChoice)
    (he : ∀ v, P v → Q (emit v)) (haP : ∀ v, P v → P (act v)) (haQ : ∀ v, Q v → Q (act v)) (h : P s) :
    Q (raceLc emit act s) := by
  rcases raceLc_cases emit act s with e | e | e <;> rw [e]
  · exact he _ (haP _ h)
  · exact haQ _ (he _ (hc _ h))
  · exact he _ (haP _ (hc _ h))

/-! ### The return to ATTACHED (R98) -/

/-- BM's own acts at its return to ATTACHED turn what the telling of the end turns. -/
theorem endAttemptAfter_turns {P Q : State → Prop} (hP : Kept P) (hQ : Kept Q) (h : w.det.unpowered = false)
    (tell : ∀ v, P v → Q (tellEnd first o w.bm.active v)) (haP : ∀ v, P v → P (compareStream v))
    (haQ : ∀ v, Q v → Q (compareStream v)) (start : P (sfeView (attemptBack o w))) : Q (endAttemptAfter first o w) := by
  rw [endAttemptAfter_back first h]
  exact bmReport_turns hP hQ false
    (fun v hv => raceLc_turns (fun u hu => hP (nextChoice_relayed u) hu) tell haP haQ hv) start

/-- R82, R98: the detach record when an attempt is over, and BM's state, after the report. -/
theorem endAttemptAfter_records (hf : Telling first) (h : w.det.unpowered = false) :
    (endAttemptAfter first o w).bm.state = .attached ∧ (endAttemptAfter first o w).det = w.det.ended o w.now ∧
    (endAttemptAfter first o w).rba = w.rba := by
  have frame := bmReport_changes (m := actParts) (a := false) (by decide) (fun v => raceLc_changes (by decide)
    (fun x => (tellEnd_tells hf.tells o w.bm.active x).mono (by decide)) (fun x => (compareStream_changes x).mono (by decide)) v)
    (attemptBack o w)
  rw [endAttemptAfter_back first h]
  exact ⟨frame.same .bmState (by decide), frame.det_eq (by decide), frame.rba_eq (by decide)⟩

theorem endAttemptAfter_result (hf : Telling first) (h : w.det.unpowered = false) (taking : Taking .detach w.lc) :
    Waits (.detachResult o w.det.origin w.det.path w.bm.active) (endAttemptAfter first o w).lc := by
  refine endAttemptAfter_turns
    (P := fun v => v.det = w.det.ended o w.now ∧ Taking .detach v.lc)
    (Q := fun v => Waits (.detachResult o w.det.origin w.det.path w.bm.active) v.lc)
    (fun r hv => ⟨(r.frame.det_eq (by decide)).trans hv.1, r.told.taking hv.2⟩) (fun r hv => r.told.waits rfl hv) h
    (fun v hv => ?_)
    (fun v hv => ⟨((compareStream_changes v).det_eq (by decide)).trans hv.1, (compareStream_told v).taking hv.2⟩)
    (fun v hv => (compareStream_told v).waits rfl hv) ?_
  · obtain ⟨det, hv⟩ := hv
    have waits := tellEnd_waits (o := o) (serial := w.bm.active) hf hv
    rw [det] at waits
    exact waits
  · have c := sfeView_changes (attemptBack o w)
    exact ⟨c.det_eq (by decide), (sfeView_lc (attemptBack o w)).symm ▸ taking⟩

/-- The history that the end of an attempt leaves is that of `first`. -/
theorem endAttemptAfter_history (h : w.det.unpowered = false) :
    ∃ x, SameHistory w x ∧ SameHistory (first x) (endAttemptAfter first o w) :=
  endAttemptAfter_turns (P := SameHistory w) (Q := fun v => ∃ x, SameHistory w x ∧ SameHistory (first x) v)
    (sameHistory_kept w) (fun r ⟨x, hx, hv⟩ => ⟨x, hx, sameHistory_kept _ r hv⟩) h
    (fun v hv => ⟨v, hv, tellEnd_history _ v⟩)
    (fun v hv => hv.trans (.of_changes (compareStream_changes v) (by decide)))
    (fun v ⟨x, hx, hv⟩ => ⟨x, hx, hv.trans (.of_changes (compareStream_changes v) (by decide))⟩)
    (SameHistory.of_changes (s := attemptBack o w) (sfeView_changes _) (by decide))

/-- R82: the blink of an outcome, by the time of the command that ends the attempt. -/
theorem Leads.ended_blink (h : Leads u w) (o : DetachOutcome) :
    (w.det.ended o w.now).blink =
      if DetachOutcome.blinks o = true then some (u.now + 2000) else u.det.blink := by
  rw [← h.now, ← h.blink]
  rfl

/-- R82, R98: what an attempt that ends over a base with its supply leaves. -/
theorem endAttemptAfter_ended (hf : Telling first) (hu : Leads u w) (h : w.det.unpowered = false) :
    attemptEnded o u (endAttemptAfter first o w) := by
  obtain ⟨state, det, -⟩ := endAttemptAfter_records (o := o) hf h
  refine ⟨state, ?_, ?_, ?_, ?_, ?_, fun tx grant => ?_, ?_⟩
  · rw [det]; rfl
  · rw [det]; rfl
  · rw [det]; rfl
  · rw [det]; rfl
  · rw [det, hu.ended_blink]
    cases o <;> rfl
  · rw [det, ← hu.active]
    exact (endAttemptAfter_result hf h (hu.taking ⟨tx, grant⟩)).queued
  · exact (hu.frame.mono (by decide)).step (endAttemptAfter_changes o hf.tells w) (by decide)

/-! ### The base powered afresh (R66, R93) -/

/-- BM's and the detach record when an attached base has lost its supply: BM goes to POWERING (R66, R93). -/
def outage (s : State) : State :=
  { s with
    bm := { s.bm.powering with stream := .running, quiesce := none, active := none }
    det := { s.det with deadline := .none, timer := none, unpowered := false } }

/-- What BM does at its report of a loss of power (R66, R93). -/
def outageActs (first : State → State) (serial : Option Serial) (s : State) : State :=
  offer (.baseLost .noPower serial) (rise .baseLost 2 (first s))

/-- BM has reported the loss of power and filed the base's claim again (R66). -/
def outageFiled (first : State → State) (s : State) : State :=
  fileBase (baseAmount s) (bmReport false (outageActs first s.bm.active) (outage s))

theorem lossOfPowerAfter_eq (first : State → State) (s : State) :
    lossOfPowerAfter first s = powerIfGranted (outageFiled first s) := rfl

theorem outageActs_changes (hf : Telling first) (serial : Option Serial) (v : State) :
    Changes [.live, .latched, .history, .link, .queue] v (outageActs first serial v) :=
  ((hf.tells v).step (rise_changes _ _ _) (by decide)).step (offer_changes _ _) (by decide)

theorem powerIfGranted_told (s : State) : Told s.lc (powerIfGranted s).lc := by
  unfold powerIfGranted
  split
  · exact startIdentify_told s
  · exact .refl _

/-- What BM's own acts at the report of a loss turn, the claim and the notices keep. -/
theorem outageFiled_turns {P Q : State → Prop} (hP : Kept P) (hQ : Kept Q)
    (acts : ∀ v, P v → Q (outageActs first s.bm.active v)) (start : P (sfeView (outage s))) :
    Q (outageFiled first s) :=
  hQ (fileBase_relayed _ _) (bmReport_turns hP hQ false acts start)

theorem outageFiled_baseAt (hf : Telling first) (s : State) :
    BaseAt (outage s).bm s.btx s.now (outageFiled first s) := by
  have loose : ∀ {v}, BaseAt (outage s).bm s.btx s.now v → Calm v := fun hv => .inl (by rw [hv.1]; rfl)
  have report : BaseAt (outage s).bm s.btx s.now (bmReport false (outageActs first s.bm.active) (outage s)) :=
    bmReport_baseAt_acts (loose (baseAt_self _)) false fun v _ hv =>
      have after := hv.through (outageActs_changes hf _ v) (by decide)
      ⟨loose after, after⟩
  exact ((loose report).after.relayed (fileBase_relayed _ _)).baseAt report

/-- R93: a base that has lost its supply waits for it in POWERING, or is being identified where its claim is granted. -/
theorem lossOfPowerAfter_bm (hf : Telling first) (s : State) :
    ((lossOfPowerAfter first s).bm.state = .powering ∨ (lossOfPowerAfter first s).bm.state = .identifying) ∧
    (lossOfPowerAfter first s).bm.active = none ∧ (lossOfPowerAfter first s).bm.stream = .running := by
  have filed := outageFiled_baseAt hf s
  rw [lossOfPowerAfter_eq]
  unfold powerIfGranted
  split
  · rw [(startIdentify_baseAt filed).1]
    exact ⟨.inr rfl, rfl, rfl⟩
  · rw [filed.1]
    exact ⟨.inl rfl, rfl, rfl⟩

/-- R66, R93: the loss ends the deadline in force, and the claim is filed again as it was. -/
theorem lossOfPowerAfter_records (hf : Telling first) (s : State) :
    (lossOfPowerAfter first s).det = (outage s).det ∧
    (lossOfPowerAfter first s).rba.base = some { requested := baseAmount s, minimum := baseAmount s } ∧
    (lossOfPowerAfter first s).rba.latch = s.rba.latch := by
  have report := bmReport_changes (m := actParts) (a := false) (by decide)
    (fun v => (outageActs_changes hf s.bm.active v).mono (by decide)) (outage s)
  have identify := powerIfGranted_changes (outageFiled first s)
  rw [lossOfPowerAfter_eq, identify.rba_eq (by decide), identify.det_eq (by decide)]
  refine ⟨((fileBase_relayed _ _).frame.det_eq (by decide)).trans (report.det_eq (by decide)), fileBase_claim _ _, ?_⟩
  rw [outageFiled, fileBase_rba, report.rba_eq (by decide)]
  rfl

theorem lossOfPowerAfter_told (hf : Telling first) (s : State) : Told s.lc (lossOfPowerAfter first s).lc := by
  have report : Told s.lc (bmReport false (outageActs first s.bm.active) (outage s)).lc :=
    bmReport_told false (fun v => ((hf.told v).trans (rise_told _ _ _)).trans (offer_told _ _)) (outage s)
  exact (report.trans (fileBase_relayed _ _).told).trans (powerIfGranted_told _)

/-- An event that BM's own acts at the loss put into the queue stands there. -/
theorem lossOfPowerAfter_waits (occurs : e.kind.isState = false)
    (acts : ∀ v, v.det = (outage s).det → Taking e.kind.cls v.lc → Waits e (outageActs first s.bm.active v).lc)
    (taking : Taking e.kind.cls s.lc) : Waits e (lossOfPowerAfter first s).lc := by
  have filed : Waits e (outageFiled first s).lc :=
    outageFiled_turns (P := fun v => v.det = (outage s).det ∧ Taking e.kind.cls v.lc) (Q := fun v => Waits e v.lc)
      (fun r hv => ⟨(r.frame.det_eq (by decide)).trans hv.1, r.told.taking hv.2⟩) (fun r hv => r.told.waits occurs hv)
      (fun v hv => acts v hv.1 hv.2)
      ⟨(sfeView_changes _).det_eq (by decide), (sfeView_lc (outage s)).symm ▸ taking⟩
  exact (powerIfGranted_told _).waits occurs filed

theorem lossOfPowerAfter_lost (hf : Telling first) (taking : Taking .base s.lc) :
    Waits (.baseLost .noPower s.bm.active) (lossOfPowerAfter first s).lc :=
  lossOfPowerAfter_waits rfl
    (fun v _ hv => offer_waits rfl (((hf.told v).trans (rise_told _ _ _)).taking hv)) taking

/-- The history that a loss leaves: what `first` does, then BASE_LOST with detail 2. -/
theorem lossOfPowerAfter_history (first : State → State) (s : State) :
    ∃ x, SameHistory s x ∧ SameHistory (rise .baseLost 2 (first x)) (lossOfPowerAfter first s) := by
  obtain ⟨x, hx, filed⟩ := outageFiled_turns (s := s) (first := first) (P := SameHistory s)
    (Q := fun v => ∃ x, SameHistory s x ∧ SameHistory (rise .baseLost 2 (first x)) v)
    (sameHistory_kept s) (fun r ⟨x, hx, hv⟩ => ⟨x, hx, sameHistory_kept _ r hv⟩)
    (fun v hv => ⟨v, hv, .of_changes (offer_changes _ _) (by decide)⟩)
    (SameHistory.of_changes (s := outage s) (sfeView_changes _) (by decide))
  exact ⟨x, hx, filed.trans (.of_changes (powerIfGranted_changes _) (by decide))⟩

/-- R93, R98: a loss of power after the record of an attempt has been ended. -/
theorem lossOfPowerAfter_poweredAfresh (hf : Telling first) (hu : Leads u w) (hdet : s.det = w.det.ended o w.now)
    (hbm : s.bm = w.bm) (hrba : s.rba = w.rba) (taking : ∀ {cls}, Taking cls w.lc → Taking cls s.lc)
    (result : Taking .detach w.lc →
      Waits (.detachResult o w.det.origin w.det.path w.bm.active) (lossOfPowerAfter first s).lc) :
    poweredAfresh o u (lossOfPowerAfter first s) := by
  obtain ⟨state, active, stream⟩ := lossOfPowerAfter_bm hf s
  obtain ⟨det, base, -⟩ := lossOfPowerAfter_records hf s
  obtain ⟨x, -, latched, -, -⟩ := lossOfPowerAfter_history first s
  have amount : baseAmount s = (u.rba.base.map (·.requested)).getD 0 := by rw [baseAmount, hrba, hu.base]
  refine ⟨state, active, stream, ?_, ?_, ?_, ?_, ?_, ?_, ?_, ?_, fun tx => ⟨fun grant => ?_, fun grant => ?_⟩⟩
  · rw [det]; rfl
  · rw [det]; rfl
  · rw [det]; rfl
  · rw [det]; simp only [outage, hdet]; rfl
  · rw [det]; simp only [outage, hdet]; rfl
  · rw [det]
    simp only [outage, hdet]
    rw [hu.ended_blink]
    cases o <;> rfl
  · rw [base, amount]
  · rw [latched]
    exact (rise_rose_of_occurrence rfl 2 _).1
  · rw [det]
    simp only [outage, hdet]
    rw [← hu.active]
    exact (result (hu.taking ⟨tx, grant⟩)).queued
  · rw [← hu.active, ← hbm]
    exact (lossOfPowerAfter_lost hf (taking (hu.taking ⟨tx, grant⟩))).queued

/-- R93, R98: an attempt that ends over a base without its supply powers it afresh; `first`'s rise comes before
BASE_LOST. -/
theorem endAttemptAfter_afresh (hf : Telling first) (hu : Leads u w) (h : w.det.unpowered = true) :
    poweredAfresh o u (endAttemptAfter first o w) ∧
    ∃ x y, SameHistory u x ∧ SameHistory (first x) y ∧ SameHistory (rise .baseLost 2 y) (endAttemptAfter first o w) := by
  have telling := hf.atEnd o w.bm.active
  let begun : State := (attemptOver o w).nextChoice
  have history : SameHistory u begun := hu.history
  rcases endAttemptAfter_lost (o := o) first h with e | e <;> rw [e]
  · have told := telling.tells begun
    obtain ⟨x, hx, done⟩ := lossOfPowerAfter_history id (tellEnd first o w.bm.active begun)
    refine ⟨lossOfPowerAfter_poweredAfresh telling_id hu (telling.det begun) (told.bm_eq (by decide))
      (told.rba_eq (by decide)) (fun k => (telling.told begun).taking k) fun taking => ?_, begun, x, history,
      (tellEnd_history _ _).trans hx, done⟩
    exact (lossOfPowerAfter_told telling_id _).waits rfl (tellEnd_waits (v := begun) hf taking)
  · obtain ⟨x, hx, done⟩ := lossOfPowerAfter_history (tellEnd first o w.bm.active) begun
    refine ⟨lossOfPowerAfter_poweredAfresh telling hu rfl rfl rfl id fun taking => ?_, x, _, history.trans hx,
      tellEnd_history _ _, done⟩
    refine lossOfPowerAfter_waits rfl (fun v det hv => offer_keeps_waiting rfl _ ((rise_told _ _ _).waits rfl ?_)) taking
    have waits := tellEnd_waits (o := o) (serial := w.bm.active) hf hv
    rw [det] at waits
    exact waits

/-- The end of an attempt leaves the LATCH claim as it finds it. -/
theorem endAttemptAfter_latch (hf : Telling first) (o : DetachOutcome) (w : State) :
    (endAttemptAfter first o w).rba.latch = w.rba.latch := by
  cases h : w.det.unpowered with
  | false =>
    obtain ⟨-, -, rba⟩ := endAttemptAfter_records (o := o) hf h
    rw [rba]
  | true =>
    have telling := hf.atEnd o w.bm.active
    rcases endAttemptAfter_lost (o := o) first h with e | e <;> rw [e]
    · obtain ⟨-, -, latch⟩ := lossOfPowerAfter_records telling_id (tellEnd first o w.bm.active (attemptOver o w).nextChoice)
      exact latch.trans (congrArg Rba.latch ((telling.tells _).rba_eq (by decide)))
    · obtain ⟨-, -, latch⟩ := lossOfPowerAfter_records telling (attemptOver o w).nextChoice
      exact latch

/-! ### The two ends of Chapter 5 -/

theorem endAttempt_ended (hu : Leads u w) (h : w.det.unpowered = false) : attemptEnded o u (endAttempt o w) :=
  endAttemptAfter_ended telling_id hu h

theorem endAttempt_afresh (hu : Leads u w) (h : w.det.unpowered = true) :
    poweredAfresh o u (endAttempt o w) ∧ Rose .baseLost 2 u (endAttempt o w) := by
  obtain ⟨afresh, x, y, hx, hy, done⟩ := endAttemptAfter_afresh (o := o) telling_id hu h
  exact ⟨afresh, (rise_rose_of_occurrence rfl 2 y).through rfl (hx.trans hy) done⟩

theorem endStuck_ended {detail : Nat} (hu : Leads u w) (h : w.det.unpowered = false) :
    attemptEnded .latchStuck u (endStuck detail w) ∧ Rose .latchStuck detail u (endStuck detail w) := by
  obtain ⟨x, hx, done⟩ := endAttemptAfter_history (o := .latchStuck) (first := rise .latchStuck detail) h
  exact ⟨endAttemptAfter_ended (telling_rise _ _) hu h,
    (rise_rose_of_occurrence rfl detail x).through rfl (hu.history.trans hx) done⟩

/-- R93, R94: a latch that is stuck over a base without its supply raises two conditions. -/
theorem endStuck_afresh {detail : Nat} (hu : Leads u w) (h : w.det.unpowered = true) :
    poweredAfresh .latchStuck u (endStuck detail w) ∧ (endStuck detail w).cm.next = u.cm.next + 2 ∧
    bitHas (endStuck detail w).cm.latched Cond.latchStuck.idx = true := by
  obtain ⟨afresh, x, y, hx, hy, latched, -, next⟩ :=
    endAttemptAfter_afresh (o := .latchStuck) (telling_rise .latchStuck detail) hu h
  obtain ⟨stuck, -, first, -⟩ := (rise_rose_of_occurrence rfl detail x).through rfl hx hy
  obtain ⟨-, -, second, -⟩ := rise_rose_of_occurrence (c := .baseLost) rfl 2 y
  refine ⟨afresh, ?_, ?_⟩
  · rw [show (endStuck detail w).cm.next = _ from next, second, first, BitVec.add_assoc]
    rfl
  · exact latched ▸ rise_keeps_latched stuck

end Sys2Proof.Machine

/-!
The latch's own commands (R89 to R96): the deadlines of RELEASING and CLOSING, and the latch switch.
-/
namespace Sys2Proof.Machine

open Sys2Proof.Claims

variable {s t u w : State} {why : ClosingReason} {d : Nat} {due : Deadline}

/-! ### The deadlines (Chapter 5) -/

theorem inForce_iff {state : BmState} (h : deadlineState due = some state) :
    inForce due s = true ↔ s.bm.state = state ∧ s.det.deadline = due := by
  simp only [inForce, h, Bool.and_eq_true, decide_eq_true_eq, Option.some.injEq]
  exact ⟨fun ⟨deadline, here⟩ => ⟨here.symm, deadline⟩, fun ⟨here, deadline⟩ => ⟨deadline, here.symm⟩⟩

/-- The expiry of the deadline in force is taken. -/
theorem deadline_expires {state : BmState} (f : State → State) (h : deadlineState due = some state) (held : s.held = none)
    (timer : s.det.timer = some d) (here : s.bm.state = state) (deadline : s.det.deadline = due) :
    whileRunning (fun v => onExpiry (deadlineTimer due v) f v) s = f (runTo d s) :=
  expiry_running _ f held ((whenIn_here _ ((inForce_iff h).mpr ⟨here, deadline⟩)).trans timer)

/-- The expiry of a deadline that is not in force, or whose timer does not run, is of nothing. -/
theorem deadline_idle {state : BmState} (f : State → State) (h : deadlineState due = some state) (held : s.held = none)
    (off : ¬ (s.bm.state = state ∧ s.det.deadline = due) ∨ s.det.timer = none) :
    whileRunning (fun v => onExpiry (deadlineTimer due v) f v) s = s := by
  refine expiry_idle _ f held ?_
  by_cases here : inForce due s = true
  · exact (whenIn_here _ here).trans (off.resolve_left fun out => out ((inForce_iff h).mp here))
  · exact whenIn_elsewhere _ (Bool.eq_false_iff.mpr here)

/-! ### The grant wait and the open check (R89, R90) -/

theorem giveUpLatch_latch (o : DetachOutcome) (s : State) : (giveUpLatch o s).rba.latch = none :=
  (endAttemptAfter_latch telling_id o _).trans (withdrawLatch_claims s).1

theorem withdrawLatch_unpowered (s : State) : (withdrawLatch s).det.unpowered = s.det.unpowered :=
  congrArg Det.unpowered ((withdrawLatch_relayed s).frame.det_eq (by decide))

/-- R89, R92: an attempt whose latch was never energised is given up. -/
theorem giveUpLatch_ends (o : DetachOutcome) (hu : Leads u s) :
    (s.det.unpowered = false → attemptEnded o u (giveUpLatch o s)) ∧
    (s.det.unpowered = true → poweredAfresh o u (giveUpLatch o s) ∧ Rose .baseLost 2 u (giveUpLatch o s)) := by
  have leads := hu.trans (withdrawLatch_leads s)
  exact ⟨fun h => endAttempt_ended leads ((withdrawLatch_unpowered s).trans h),
    fun h => endAttempt_afresh leads ((withdrawLatch_unpowered s).trans h)⟩

theorem openCheckFailed_off (s : State) :
    (openCheckFailed s).rba.latch = none ∧ (openCheckFailed s).det.lsol = false := by
  have lsol : (openCheckFailed s).det.lsol = (latchOff s).det.lsol := (endStuck_changes 1 (latchOff s)).same .lsol (by decide)
  rw [latchOff_det] at lsol
  exact ⟨(endAttemptAfter_latch (telling_rise _ _) _ _).trans (withdrawLatch_claims _).1, lsol⟩

theorem latchOff_unpowered (s : State) : (latchOff s).det.unpowered = s.det.unpowered := by rw [latchOff_det]

/-! ### CLOSING (R94) -/

/-- BM in CLOSING, before its report. -/
def closingEntered (why : ClosingReason) (s : State) : State :=
  let v := latchOff s
  { v with
    bm := { v.bm with state := .closing }
    det := { v.det with closing := some why, deadline := .closeCheck, timer := some (v.now + 150) } }

/-- BM has reported its entry to CLOSING. -/
def closingReported (why : ClosingReason) (s : State) : State := bmReport false compareStream (closingEntered why s)

theorem toClosing_eq (why : ClosingReason) (s : State) :
    toClosing why s =
      (match (closingReported why s).det.lsw with
       | .shut => endAttempt (closingOutcome (some why)) (closingReported why s)
       | .opened => closingReported why s) := rfl

theorem closingReported_frame (why : ClosingReason) (s : State) :
    Changes actParts (closingEntered why s) (closingReported why s) :=
  (bmReport_changes (m := reportParts) (by decide) (fun v => (compareStream_changes v).mono (by decide)) _).mono (by decide)

theorem closingReported_leads (why : ClosingReason) (s : State) : Leads s (closingReported why s) := by
  have entered : Leads (latchOff s) (closingEntered why s) := by
    refine ⟨⟨fun p hp => ?_⟩, rfl, id⟩
    cases p <;> first | rfl | exact absurd (by decide) hp
  have report := bmReport_changes (m := reportParts) (a := false) (by decide)
    (fun v => (compareStream_changes v).mono (by decide)) (closingEntered why s)
  exact ((latchOff_leads s).trans entered).trans
    (.of_told report (by decide) (congrArg Rba.base (report.rba_eq (by decide))) (bmReport_told false compareStream_told _))

theorem closingReported_det (why : ClosingReason) (s : State) :
    (closingReported why s).det =
      { s.det with lsol := false, closing := some why, deadline := .closeCheck, timer := some (s.now + 150) } := by
  rw [(closingReported_frame why s).det_eq (by decide)]
  simp only [closingEntered, latchOff_det, (latchOff_leads s).now]

theorem closingReported_latch (why : ClosingReason) (s : State) : (closingReported why s).rba.latch = none := by
  rw [(closingReported_frame why s).rba_eq (by decide)]
  exact (withdrawLatch_claims _).1

theorem closingReported_state (why : ClosingReason) (s : State) : (closingReported why s).bm.state = .closing :=
  (closingReported_frame why s).same .bmState (by decide)

theorem closingOutcome_eq (why : ClosingReason) : closingOutcome (some why) = outcomeOf why := by
  cases why <;> rfl

theorem toClosing_opened (h : s.det.lsw = .opened) : toClosing why s = closingReported why s := by
  have lsw : (closingReported why s).det.lsw = .opened := (congrArg Det.lsw (closingReported_det why s)).trans h
  simp only [toClosing_eq, lsw]

theorem toClosing_shut (h : s.det.lsw = .shut) : toClosing why s = endAttempt (outcomeOf why) (closingReported why s) := by
  have lsw : (closingReported why s).det.lsw = .shut := (congrArg Det.lsw (closingReported_det why s)).trans h
  simp only [toClosing_eq, lsw, closingOutcome_eq]

theorem toClosing_off (why : ClosingReason) (s : State) :
    (toClosing why s).det.lsol = false ∧ (toClosing why s).rba.latch = none := by
  have lsol : (closingReported why s).det.lsol = false := by rw [closingReported_det]
  cases lsw : s.det.lsw with
  | opened =>
    rw [toClosing_opened lsw]
    exact ⟨lsol, closingReported_latch why s⟩
  | shut =>
    rw [toClosing_shut lsw]
    have kept : (endAttempt (outcomeOf why) (closingReported why s)).det.lsol = (closingReported why s).det.lsol :=
      (endAttempt_changes _ _).same .lsol (by decide)
    exact ⟨kept.trans lsol,
      (endAttemptAfter_latch telling_id _ _).trans (closingReported_latch why s)⟩

/-- R94: what BM's entry to CLOSING leaves. -/
theorem toClosing_closing (hu : Leads u s) (hlsw : s.det.lsw = u.det.lsw) (hsupply : s.det.unpowered = u.det.unpowered) :
    closingWith why u (toClosing why s) := by
  obtain ⟨lsol, latch⟩ := toClosing_off why s
  have leads := hu.trans (closingReported_leads why s)
  have supply : (closingReported why s).det.unpowered = u.det.unpowered :=
    (congrArg Det.unpowered (closingReported_det why s)).trans hsupply
  refine ⟨lsol, latch, fun h => ?_, fun h back => ?_, fun h lost => ?_⟩
  · rw [toClosing_opened (hlsw.trans h), closingReported_det, closingReported_state, hu.now]
    exact ⟨rfl, rfl, rfl, rfl⟩
  · rw [toClosing_shut (hlsw.trans h)]
    exact endAttempt_ended leads (supply.trans back)
  · rw [toClosing_shut (hlsw.trans h)]
    exact endAttempt_afresh leads (supply.trans lost)

/-! ### The latch switch (R90, R94) -/

theorem exec_lswChange (pos : LatchPos) (held : s.held = none) : exec (.lswChange pos) s = .next (lswChanged pos s) :=
  congrArg Host.Outcome.next (onInput_running held)

/-- A change of the latch switch is recorded. -/
def lswRecorded (pos : LatchPos) (s : State) : State := { s with det := { s.det with lsw := pos } }

theorem lswRecorded_leads (pos : LatchPos) (s : State) : Leads s (lswRecorded pos s) := by
  refine ⟨⟨fun p hp => ?_⟩, rfl, id⟩
  cases p <;> first | rfl | exact absurd (by decide) hp

theorem lswChanged_opened (h : s.bm.state = .releasing ∧ s.det.deadline = .openCheck) :
    lswChanged .opened s = startWindow (lswRecorded .opened s) :=
  if_pos ((inForce_iff (s := lswRecorded .opened s) rfl).mpr h)

theorem lswChanged_shut (h : s.bm.state = .closing ∧ s.det.deadline = .closeCheck) (hwhy : s.det.closing = some why) :
    lswChanged .shut s = endAttempt (outcomeOf why) (lswRecorded .shut s) := by
  rw [← closingOutcome_eq, ← hwhy]
  exact if_pos ((inForce_iff (s := lswRecorded .shut s) rfl).mpr h)

/-- A change of LSW that no check waits for is recorded and does nothing else. -/
theorem lswChanged_stray {pos : LatchPos} (hopen : ¬ (s.bm.state = .releasing ∧ s.det.deadline = .openCheck ∧ pos = .opened))
    (hshut : ¬ (s.bm.state = .closing ∧ s.det.deadline = .closeCheck ∧ pos = .shut)) :
    lswChanged pos s = lswRecorded pos s := by
  cases pos with
  | opened =>
    refine if_neg fun h => ?_
    obtain ⟨state, deadline⟩ := (inForce_iff (s := lswRecorded .opened s) rfl).mp h
    exact hopen ⟨state, deadline, rfl⟩
  | shut =>
    refine if_neg fun h => ?_
    obtain ⟨state, deadline⟩ := (inForce_iff (s := lswRecorded .shut s) rfl).mp h
    exact hshut ⟨state, deadline, rfl⟩

/-- Settles O41: each deadline in force ends as its act does, and LSW is heard where a check waits for it. -/
theorem latchCommands : Obligations.LatchCommands := by
  intro pos s held
  have lost : ¬ s.det.unpowered = false → s.det.unpowered = true := Bool.of_not_eq_false
  refine ⟨fun d timer => ⟨fun here due => ?_, fun here due => ?_, fun here due => ?_, fun here due => ?_⟩,
    fun here due => ?_, fun here due why hwhy => ?_, fun hopen hshut => ?_, fun off => ?_, fun off => ?_, fun off => ?_,
    fun off => ?_⟩
  · obtain ⟨back, afresh⟩ := giveUpLatch_ends .noPower (.refl (runTo d s))
    exact ⟨_, congrArg Host.Outcome.next (deadline_expires _ rfl held timer here due), giveUpLatch_latch _ _, back, fun h => afresh (lost h)⟩
  · have leads := latchOff_leads (runTo d s)
    obtain ⟨latch, lsol⟩ := openCheckFailed_off (runTo d s)
    refine ⟨_, congrArg Host.Outcome.next (deadline_expires _ rfl held timer here due), latch, lsol, fun h => ?_, fun h => ?_⟩
    · exact endStuck_ended leads ((latchOff_unpowered _).trans h)
    · exact endStuck_afresh leads ((latchOff_unpowered _).trans (lost h))
  · exact ⟨_, congrArg Host.Outcome.next (deadline_expires _ rfl held timer here due), toClosing_closing (.refl _) rfl rfl⟩
  · exact ⟨_, congrArg Host.Outcome.next (deadline_expires _ rfl held timer here due), fun h => endStuck_ended (.refl (runTo d s)) h,
      fun h => endStuck_afresh (.refl (runTo d s)) (lost h)⟩
  · rw [exec_lswChange _ held, lswChanged_opened ⟨here, due⟩]
    rfl
  · rw [exec_lswChange _ held, lswChanged_shut ⟨here, due⟩ hwhy]
    have leads := lswRecorded_leads .shut s
    refine ⟨_, rfl, ?_, fun h => endAttempt_ended leads h, fun h => endAttempt_afresh leads (lost h)⟩
    exact (endAttempt_changes _ (lswRecorded .shut s)).same .lsw (by decide)
  · rw [exec_lswChange _ held, lswChanged_stray hopen hshut]
    rfl
  all_goals exact congrArg Host.Outcome.next (deadline_idle _ rfl held off)

end Sys2Proof.Machine

/-!
The entry to RELEASING (R71, R89, R90): the base stream is quiesced at BM's report, the LATCH claim is filed, and its grant
decides between the open check and the grant wait.
-/
namespace Sys2Proof.Machine

open Sys2Proof.Claims

variable {s t u w : State}

/-! ### The base stream in RELEASING (R71) -/

/-- The stream when BM no longer wants it (R71). -/
def stilled (x : Stream) : Stream := if x = .running then .pausing else x

/-- In RELEASING, `t` follows `s` by acts that may quiesce the stream and do nothing else to it. -/
def Stills (s t : State) : Prop :=
  s.bm.state = .releasing → t.bm.state = .releasing ∧ (t.bm.stream = s.bm.stream ∨ t.bm.stream = stilled s.bm.stream)

theorem stilled_stilled (x : Stream) : stilled (stilled x) = stilled x := by cases x <;> rfl

theorem Stills.refl (s : State) : Stills s s := fun h => ⟨h, .inl rfl⟩

theorem Stills.trans (h : Stills s t) (g : Stills t u) : Stills s u := fun hs => by
  obtain ⟨ht, first⟩ := h hs
  obtain ⟨hu, second⟩ := g ht
  refine ⟨hu, ?_⟩
  rcases first with e | e <;> rw [e] at second
  · exact second
  · rw [stilled_stilled] at second
    exact .inr (second.elim id id)

theorem Stills.of_changes {m : List Part} (c : Changes m s t) (hm : ∀ p ∈ [Part.stream, .bmState], p ∉ m) : Stills s t :=
  fun h => by
    have state : t.bm.state = s.bm.state := c.same .bmState (hm _ (by decide))
    exact ⟨state.trans h, .inl (Prod.mk.inj (c.same .stream (hm _ (by decide)))).1⟩

/-- R71: in RELEASING the stream is not wanted, so the comparison leaves it quiesced. -/
theorem compareStream_releasing (h : s.bm.state = .releasing) :
    (compareStream s).bm.state = .releasing ∧ (compareStream s).bm.stream = stilled s.bm.stream := by
  have unwanted : ¬ streamWanted s = true := by simp [streamWanted, h]
  have based : BmState.hasBase s.bm.state = true := by rw [h]; rfl
  unfold compareStream
  rw [if_neg unwanted]
  split
  · rename_i runs
    obtain ⟨-, runs⟩ := runs
    unfold quiesceStream
    rw [sfeView_bm, stilled, runs]
    exact ⟨h, rfl⟩
  · rename_i stands
    rw [stilled, if_neg fun runs => stands ⟨based, runs⟩]
    exact ⟨h, rfl⟩

theorem compareStream_stills (s : State) : Stills s (compareStream s) := fun h =>
  (compareStream_releasing h).imp id .inr

theorem bmMode_stills (old : PartMode) (s : State) : Stills s (bmMode old s) := by
  unfold bmMode
  split
  · exact fun h => ⟨h, .inl rfl⟩
  · exact compareStream_stills s

/-- R71, R72: at a change of mode BM alone acts on the stream. -/
theorem chooseMode_stills (s : State) : Stills s (chooseMode s) := by
  unfold chooseMode
  split
  · exact .refl s
  · let chosen : State := { s with spu := { s.spu with mode := modeWanted s } }
    have sensing : Stills s (sfeMode s.spu.mode chosen) :=
      Stills.of_changes (s := chosen) (sfeMode_changes s.spu.mode chosen) (by decide)
    have scans := sensing.trans (.of_changes (smMode_changes _) (by decide))
    exact (scans.trans (bmMode_stills s.spu.mode _)).trans (.of_changes (peMode_changes _) (by decide))

theorem cause_stills (c : WakeCause) (s : State) : Stills s (cause c s) := by
  unfold cause takeCause
  split
  · cases s.spu.state with
    | asleep => exact chooseMode_stills { s with spu := s.spu.episode s.now s.settings.sleep (bitAdd 0 c.idx) }
    | _ => exact fun h => ⟨h, .inl rfl⟩
  · exact .refl s

theorem spuPosture_stills (changed : Bool) (s : State) : Stills s (spuPosture changed s) := by
  have view : Stills s (spuView s) := .of_changes (spuView_changes s) (by decide)
  unfold spuPosture
  split
  · exact view.trans (cause_stills _ _)
  · exact view

/-- What PE's record and its messages leave, and PE's report keeps, a step of PE keeps. -/
theorem peStep_passes {P : State → Prop} {report : State → State} {p : Pe}
    (quiet : ∀ {v w}, Changes [.link, .queue, .choices] v w → P v → P w) (hr : ∀ v, P v → P (report v))
    (h : P { s with pe := settled s.pe p }) : P (peStep report p s) := by
  unfold peStep
  dsimp only
  split
  · exact raceLc_keeps (fun v => quiet ((nextChoice_changes v).mono (by decide)))
      (fun v => quiet ((emitPosture_changes _ _ v).mono (by decide))) hr h
  · exact hr _ h

/-- What PDC's records and messages leave, and a choice of mode keeps, a notice to PDC keeps (R115). -/
theorem noticePen_passes {P : State → Prop}
    (quiet : ∀ {v w}, Changes [.polls, .charging, .link, .queue, .choices] v w → P v → P w)
    (mode : ∀ v, P v → P (chooseMode v)) (h : P s) : P (noticePen s) := by
  have emits : ∀ (news : Bool) e v, P v → P ((if news = true then offer e else id) v) := fun news e v hv => by
    cases news with
    | false => exact hv
    | true => exact quiet ((offer_changes e v).mono (by decide)) hv
  unfold noticePen
  split
  · have takes : P (takeNotice s.rba.grants.pen s) := quiet ((takeNotice_changes _ s).mono (by decide)) h
    unfold pdcStep
    dsimp only
    split
    · exact emits _ _ _ takes
    · exact raceLc_keeps (fun v => quiet ((nextChoice_changes v).mono (by decide))) (emits _ _) mode takes
  · exact h

theorem peForcing_stills (s : State) : Stills s (peForcing s) := by
  unfold peForcing
  split
  · exact .refl s
  · exact peStep_passes (P := Stills s) (fun c h => h.trans (.of_changes c (by decide)))
      (fun v h => h.trans (spuPosture_stills _ v)) fun h => ⟨h, .inl rfl⟩

theorem peBm_stills (s : State) : Stills s (peBm s) :=
  peForcing_stills { s with pe := { s.pe with serial := if BmState.hasBase s.bm.state = true then s.pe.serial else none } }

theorem noticePen_stills (s : State) : Stills s (noticePen s) :=
  noticePen_passes (P := Stills s) (fun c h => h.trans (.of_changes c (by decide)))
    (fun v h => h.trans (chooseMode_stills v)) (.refl s)

theorem anyOrder_turns_last {P Q : State → Prop} {f g k : State → State} (hcP : ∀ v, P v → P v.nextChoice)
    (hcQ : ∀ v, Q v → Q v.nextChoice) (hk : ∀ v, P v → Q (k v)) (hfP : ∀ v, P v → P (f v)) (hfQ : ∀ v, Q v → Q (f v))
    (hgP : ∀ v, P v → P (g v)) (hgQ : ∀ v, Q v → Q (g v)) (hs : P s) : Q (anyOrder f g k s) := by
  have one := hcP _ hs
  have two := hcP _ one
  unfold anyOrder
  split
  · exact eitherOrder_holds (hk _ (hgP _ (hcP _ (hfP _ one)))) (hgQ _ (hk _ (hcP _ (hfP _ one))))
  · split
    · exact eitherOrder_holds (hk _ (hfP _ (hcP _ (hgP _ two)))) (hfQ _ (hk _ (hcP _ (hgP _ two))))
    · exact eitherOrder_holds (hgQ _ (hfQ _ (hcQ _ (hk _ two)))) (hfQ _ (hgQ _ (hcQ _ (hk _ two))))

/-- R71: BM's report of RELEASING leaves the stream quiesced. -/
theorem bmReport_stilled (h : s.bm.state = .releasing) :
    (bmReport false compareStream s).bm.stream = stilled s.bm.stream := by
  let P : State → Prop := fun v =>
    v.bm.state = .releasing ∧ (v.bm.stream = s.bm.stream ∨ v.bm.stream = stilled s.bm.stream)
  let Q : State → Prop := fun v => v.bm.state = .releasing ∧ v.bm.stream = stilled s.bm.stream
  have still : ∀ v, P v → stilled v.bm.stream = stilled s.bm.stream := fun v hv => by
    rcases hv.2 with e | e <;> rw [e]
    exact stilled_stilled _
  have keepsP : ∀ {v w : State}, Stills v w → P v → P w := fun g hv => by
    obtain ⟨state, stream⟩ := g hv.1
    rw [still _ hv] at stream
    exact ⟨state, stream.elim (fun e => e ▸ hv.2) .inr⟩
  have keepsQ : ∀ {v w : State}, Stills v w → Q v → Q w := fun g hv => by
    obtain ⟨state, stream⟩ := g hv.1
    rw [hv.2, stilled_stilled] at stream
    exact ⟨state, stream.elim id id⟩
  have choice : ∀ v : State, Stills v v.nextChoice := fun v => .of_changes (nextChoice_changes v) (by decide)
  have acts : ∀ v, P v → Q (compareStream v) := fun v hv => by
    obtain ⟨state, stream⟩ := compareStream_releasing hv.1
    exact ⟨state, stream.trans (still v hv)⟩
  have start : P (sfeView s) := by
    have bm := sfeView_bm s
    exact ⟨(congrArg Bm.state bm).trans h, .inl (congrArg Bm.stream bm)⟩
  have done : Q (bmReport false compareStream s) := by
    unfold bmReport
    dsimp only
    split
    · exact acts _ start
    · exact anyOrder_turns_last (fun v => keepsP (choice v)) (fun v => keepsQ (choice v)) acts
        (fun v => keepsP (peBm_stills v)) (fun v => keepsQ (peBm_stills v))
        (fun v => keepsP (chooseMode_stills v)) (fun v => keepsQ (chooseMode_stills v)) start
  exact done.2

/-! ### The records of RELEASING (R89, R90) -/

/-- BM's and the detach record on entry to RELEASING (R89). -/
def releasingEntered (s : State) : State :=
  { s with
    bm := { s.bm with state := .releasing }
    det := { s.det with blink := none, energised := false, deadline := .grantWait, timer := some (s.now + 1000) } }

theorem releasingFiled_eq (s : State) :
    releasingFiled s = fileLatch (bmReport false compareStream (releasingEntered s)) := rfl

theorem fileLatch_rba (s : State) :
    (fileLatch s).rba = ({ s.rba with latch := some ⟨250, 250⟩ } : Rba).compute := noticePen_rba _

theorem fileLatch_relayed (s : State) : Relayed s (fileLatch s) := claims_relayed _ rfl rfl

theorem fileLatch_stills (s : State) : Stills s (fileLatch s) :=
  noticePen_stills
    { s with rba := ({ s.rba with latch := some { requested := 250, minimum := 250 } } : Rba).compute }

theorem releasingReported_frame (s : State) :
    Changes reportParts (releasingEntered s) (bmReport false compareStream (releasingEntered s)) :=
  bmReport_changes (by decide) (fun v => (compareStream_changes v).mono (by decide)) _

theorem releasingFiled_frame (s : State) :
    Changes ([.claims] ++ reportParts ++ noticeParts) (releasingEntered s) (releasingFiled s) :=
  ((releasingReported_frame s).mono (by decide)).step (fileLatch_changes _) (by decide)

theorem releasingFiled_rba (s : State) :
    (releasingFiled s).rba = ({ s.rba with latch := some ⟨250, 250⟩ } : Rba).compute := by
  rw [releasingFiled_eq, fileLatch_rba, (releasingReported_frame s).rba_eq (by decide)]
  rfl

/-- R89, R114: the grant of the claim of 250 mA. -/
theorem latchGranted_releasingFiled (s : State) :
    latchGranted (releasingFiled s) = true ↔
      (grantTable s.rba.capacity s.rba.base (some ⟨250, 250⟩) s.rba.pen).latch = 250 := by
  simp only [latchGranted, releasingFiled_rba, Rba.compute, Option.isSome_some, Bool.true_and, decide_eq_true_eq]

theorem openCheck_kept (s : State) :
    (openCheck s).bm = s.bm ∧ (openCheck s).rba = s.rba ∧ (openCheck s).det.blink = s.det.blink ∧
    (openCheck s).det.origin = s.det.origin ∧ (openCheck s).det.path = s.det.path := by
  unfold openCheck
  dsimp only
  split <;> exact ⟨rfl, rfl, rfl, rfl, rfl⟩

theorem openCheck_energised (s : State) :
    (openCheck s).det.lsol = true ∧ (openCheck s).det.energised = true ∧
    (if s.det.lsw = .opened then
      (openCheck s).det.deadline = .window ∧ (openCheck s).det.timer = some (s.now + s.settings.detach.window)
    else (openCheck s).det.deadline = .openCheck ∧ (openCheck s).det.timer = some (s.now + 150)) := by
  unfold openCheck
  dsimp only
  cases s.det.lsw <;> exact ⟨rfl, rfl, rfl, rfl⟩

/-- The entry to RELEASING, up to the open check: nothing but LSOL, the deadline and the mark of R90 depends on the grant. -/
theorem toReleasing_kept (s : State) :
    (toReleasing s).bm = (releasingFiled s).bm ∧ (toReleasing s).rba = (releasingFiled s).rba ∧
    (toReleasing s).det.blink = none ∧ (toReleasing s).det.origin = s.det.origin ∧
    (toReleasing s).det.path = s.det.path := by
  have det : (releasingFiled s).det = (releasingEntered s).det := (releasingFiled_frame s).det_eq (by decide)
  have filed : (releasingFiled s).det.blink = none ∧ (releasingFiled s).det.origin = s.det.origin ∧
      (releasingFiled s).det.path = s.det.path := by
    rw [det]
    exact ⟨rfl, rfl, rfl⟩
  rw [toReleasing_eq]
  split
  · obtain ⟨bm, rba, blink, origin, path⟩ := openCheck_kept (releasingFiled s)
    rw [bm, rba, blink, origin, path]
    exact ⟨rfl, rfl, filed⟩
  · exact ⟨rfl, rfl, filed⟩

/-- R89, R90: what BM's entry to RELEASING leaves. -/
theorem toReleasing_begun (s : State) : releaseBegun s (toReleasing s) := by
  obtain ⟨bm, rba, blink, -, -⟩ := toReleasing_kept s
  have frame := releasingFiled_frame s
  have det : (releasingFiled s).det = (releasingEntered s).det := frame.det_eq (by decide)
  have now : (releasingFiled s).now = s.now := frame.same .now (by decide)
  have policy : (releasingFiled s).settings.detach = s.settings.detach := frame.same .detachPolicy (by decide)
  refine ⟨(congrArg Bm.state bm).trans (releasingFiled_state s), ?_, blink, ?_⟩
  · rw [rba, releasingFiled_rba]
    rfl
  · rw [toReleasing_eq]
    by_cases granted : (grantTable s.rba.capacity s.rba.base (some ⟨250, 250⟩) s.rba.pen).latch = 250
    · rw [if_pos granted, if_pos ((latchGranted_releasingFiled s).mpr granted)]
      have checks := openCheck_energised (releasingFiled s)
      rwa [det, now, policy] at checks
    · rw [if_neg granted, if_neg (mt (latchGranted_releasingFiled s).mp granted), det]
      exact ⟨rfl, rfl, rfl, rfl⟩

/-- R71: with the entry to RELEASING the stream is quiesced. -/
theorem toReleasing_stream (s : State) : (toReleasing s).bm.stream = stilled s.bm.stream := by
  obtain ⟨bm, -⟩ := toReleasing_kept s
  have reported := bmReport_stilled (s := releasingEntered s) rfl
  have state : (bmReport false compareStream (releasingEntered s)).bm.state = .releasing :=
    (releasingReported_frame s).same .bmState (by decide)
  obtain ⟨-, stream⟩ := fileLatch_stills _ state
  rw [reported] at stream
  rw [bm]
  exact stream.elim id fun e => e.trans (stilled_stilled _)

theorem toReleasing_told (s : State) : Told s.lc (toReleasing s).lc := by
  have filed : Told s.lc (releasingFiled s).lc :=
    (bmReport_told false compareStream_told (releasingEntered s)).trans (fileLatch_relayed _).told
  rw [toReleasing_eq]
  split
  · exact filed.trans (.of_changes (openCheck_changes _) (by decide))
  · exact filed

/-- R89: a release after acts that leave the time, the rail, the latch and the window. -/
theorem toReleasing_begun_after {m : List Part} (c : Changes m u w)
    (hm : ∀ p ∈ [Part.now, .detachPolicy, .lsw, .lsol] ++ rbaParts, p ∉ m) : releaseBegun u (toReleasing w) := by
  have rba : w.rba = u.rba := c.rba_eq fun p hp => hm p (List.mem_append_right _ hp)
  have now : w.now = u.now := c.same .now (hm _ (by decide))
  have policy : w.settings.detach = u.settings.detach := c.same .detachPolicy (hm _ (by decide))
  have lsw : w.det.lsw = u.det.lsw := c.same .lsw (hm _ (by decide))
  have lsol : w.det.lsol = u.det.lsol := c.same .lsol (hm _ (by decide))
  have begun := toReleasing_begun w
  unfold releaseBegun at begun ⊢
  rwa [rba, now, policy, lsw, lsol] at begun

/-- What the acts before a release that leave the stream may change. -/
def beforeParts : List Part := [.waiting, .assembler, .button, .attempt, .charging, .causes, .link, .queue]

/-- R71, R89: a release after acts that leave the stream too. -/
theorem toReleasing_releasing (c : Changes beforeParts u w) : releasing u (toReleasing w) := by
  have stream : w.bm.stream = u.bm.stream := (Prod.mk.inj (c.same .stream (by decide))).1
  refine ⟨toReleasing_begun_after c (by decide), ?_, (c.mono (by decide)).step (toReleasing_changes w) (by decide)⟩
  rw [toReleasing_stream, stream, stilled]

end Sys2Proof.Machine

/-!
DETACH_CONSENT, REQUEST_DETACH and the end of the consent time (R85, R86, R88).
-/
namespace Sys2Proof.Machine

open Sys2Proof.Claims

variable {s t u : State} {tag b : Byte} {place : Nat} {r : Reply}

/-! ### The acts of the two requests -/

/-- An answer leaves the transmitter that is sending, and the grants. -/
theorem answer_taking {cls : EventClass} (h : Taking cls s.lc) : Taking cls (answer place r s).lc := by
  unfold answer answerAll
  rw [kick_sending (by exact h.1)]
  exact h

/-- A request has been taken in and its owner answers before it acts (R85, R88). -/
def answeredFirst (k : ReqKind) (tag : Byte) (p : List Byte) (r : Reply) (s : State) : State :=
  answer (freePlace s.lc.slots) r (inSlot k tag p .taken s)

theorem answeredFirst_changes (k : ReqKind) (tag : Byte) (p : List Byte) (r : Reply) (s : State) :
    Changes [.assembler, .link, .queue] s (answeredFirst k tag p r s) :=
  ((inSlot_changes k tag p .taken s).mono (by decide)).step (answer_changes _ _ _) (by decide)

theorem answeredFirst_leads (k : ReqKind) (tag : Byte) (p : List Byte) (r : Reply) (s : State) :
    Leads s (answeredFirst k tag p r s) :=
  have c := answeredFirst_changes k tag p r s
  ⟨c.mono (by decide), congrArg Rba.base (c.rba_eq (by decide)), fun h => answer_taking h⟩

theorem answeredFirst_answered {k : ReqKind} {p : List Byte} (h : Ready k s) (hp : Told (answeredFirst k tag p r s).lc t.lc) :
    Answered k tag r t := by
  obtain ⟨-, -, free, -, -⟩ := h
  exact (hp.answeredIn (answer_answeredIn r (inSlot_takenIn k tag p free))).answered

theorem endAttempt_told {o : DetachOutcome} (h : s.det.unpowered = false) : Told s.lc (endAttempt o s).lc := by
  unfold endAttempt
  rw [endAttemptAfter_back id h]
  exact bmReport_told false (fun v => raceLc_told (telling_id.atEnd o s.bm.active).told compareStream_told v) (attemptBack o s)

/-! ### DETACH_CONSENT (R85) -/

section

variable (granted : bitHas s.lc.grant EventClass.detach.idx = true)

theorem serveDetachConsent_ungranted {payload : List Byte} (h : ¬ bitHas s.lc.grant EventClass.detach.idx = true) :
    serveDetachConsent place payload s = answer place (Reply.code .notGranted) s := if_neg h

include granted

theorem serveDetachConsent_unknown (h : 1 < b.toNat) :
    serveDetachConsent place [b] s = answer place (Reply.code .badValue) s := by
  have unknown : consentOf (u8 [b] 0) = none := consentOf_unknown h
  rw [serveDetachConsent, if_pos granted]
  simp only [unknown]

theorem serveDetachConsent_elsewhere (h : b.toNat ≤ 1) (hs : s.bm.state ≠ .detachAsked) :
    serveDetachConsent place [b] s = answer place (Reply.code .wrongState) s := by
  have known : consentOf (u8 [b] 0) = some _ := consentOf_known h
  rw [serveDetachConsent, if_pos granted]
  simp only [known, if_neg hs]

theorem serveDetachConsent_allow (hs : s.bm.state = .detachAsked) :
    serveDetachConsent place [0#8] s = toReleasing (answer place (Reply.ok .none) s) := by
  rw [serveDetachConsent, if_pos granted]
  exact if_pos hs

theorem serveDetachConsent_deny (hs : s.bm.state = .detachAsked) :
    serveDetachConsent place [1#8] s = endAttempt .denied (answer place (Reply.ok .none) s) := by
  rw [serveDetachConsent, if_pos granted]
  exact if_pos hs

end

/-! ### REQUEST_DETACH (R88) -/

theorem detachBarred_iff :
    detachBarred s = true ↔ s.sfe.lid.level = .asserted ∨ bitHas s.cm.latched Cond.latchStuck.idx = true := by
  simp [detachBarred, latchedFlag]

/-- A request begins an attempt on the HOST path (R88). -/
def detachRequested (s : State) : State :=
  { s with det := { s.det with origin := some .request, path := some .host } }

theorem serveRequestDetach_begins (hs : s.bm.state = .attached) (h : ¬ detachBarred s = true) :
    serveRequestDetach place s = toReleasing (answer place (Reply.ok .none) (detachRequested s)) := by
  simp only [serveRequestDetach, hs, if_neg h, detachRequested]

theorem serveRequestDetach_barred (hs : s.bm.state = .attached) (h : detachBarred s = true) :
    serveRequestDetach place s = answer place (Reply.code .wrongState) s := by
  simp only [serveRequestDetach, hs, if_pos h]

theorem serveRequestDetach_asked (hs : s.bm.state = .detachAsked) :
    serveRequestDetach place s = toReleasing (answer place (Reply.ok .none) s) := by
  simp only [serveRequestDetach, hs, consentAllowed]

theorem serveRequestDetach_elsewhere (h : s.bm.state ≠ .attached) (h' : s.bm.state ≠ .detachAsked) :
    serveRequestDetach place s = answer place (Reply.code .wrongState) s := by
  unfold serveRequestDetach
  cases hs : s.bm.state with
  | attached => exact absurd hs h
  | detachAsked => exact absurd hs h'
  | _ => rfl

/-! ### The consent time (R86) -/

theorem consentExpired_allow (h : s.settings.detach.timeoutAction = .allow) : consentExpired s = toReleasing s := by
  simp only [consentExpired, h]

theorem consentExpired_deny (h : s.settings.detach.timeoutAction = .deny) :
    consentExpired s = endAttempt .consentTimeoutDenied s := by
  simp only [consentExpired, h]

/-- Settles O40: a refusal only answers; what is taken answers first and then releases or ends the attempt. -/
theorem consentCommands : Obligations.ConsentCommands := by
  intro tag b s granted barred refused okay
  have allowed : ∀ {k p}, Ready k s → Answered k tag okay (toReleasing (answeredFirst k tag p okay s)) := fun h =>
    answeredFirst_answered h (toReleasing_told _)
  have released : ∀ k p, releasing s (toReleasing (answeredFirst k tag p okay s)) := fun k p =>
    toReleasing_releasing ((answeredFirst_changes k tag p okay s).mono (by decide))
  have det : ∀ k p, (answeredFirst k tag p okay s).det = s.det := fun k p =>
    (answeredFirst_changes k tag p okay s).det_eq (by decide)
  refine ⟨fun h ungranted => ?_, fun h g hb => ?_, fun h g hb hs => ?_, fun h g hb hs => ?_, fun h g hb hs back => ?_,
    fun h hs free => ?_, fun h hs => ?_, fun h hs => ?_, fun d timer held hs due => ⟨fun act => ?_, fun act back => ?_⟩,
    fun held off => ?_⟩
  · exact exec_request_answered (k := .detachConsent) h rfl (serveDetachConsent_ungranted ungranted)
  · exact exec_request_answered (k := .detachConsent) h rfl (serveDetachConsent_unknown g hb)
  · exact exec_request_answered (k := .detachConsent) h rfl (serveDetachConsent_elsewhere g hb hs)
  · subst hb
    obtain ⟨-, -, -, -, path⟩ := toReleasing_kept (answeredFirst .detachConsent tag [0#8] okay s)
    exact ⟨_, (exec_request_ready (k := .detachConsent) h rfl).trans (congrArg _ (serveDetachConsent_allow g hs)),
      released _ _, path.trans (congrArg Det.path (det _ _)), allowed h⟩
  · subst hb
    have back' : (answeredFirst .detachConsent tag [1#8] okay s).det.unpowered = false :=
      (congrArg Det.unpowered (det _ _)).trans back
    exact ⟨_, (exec_request_ready (k := .detachConsent) h rfl).trans (congrArg _ (serveDetachConsent_deny g hs)),
      endAttempt_ended (answeredFirst_leads _ _ _ _ s) back', answeredFirst_answered h (endAttempt_told back')⟩
  · have begins : Changes [.attempt] s (detachRequested s) := by
      refine ⟨fun p hp => ?_⟩
      cases p <;> first | rfl | exact absurd (by decide) hp
    have before : Changes beforeParts s (answeredFirst .requestDetach tag [] okay (detachRequested s)) :=
      (begins.mono (by decide)).step (answeredFirst_changes _ _ _ _ _) (by decide)
    have asked : (answeredFirst .requestDetach tag [] okay (detachRequested s)).det = (detachRequested s).det :=
      (answeredFirst_changes _ _ _ _ _).det_eq (by decide)
    obtain ⟨-, -, -, origin, path⟩ :=
      toReleasing_kept (answeredFirst .requestDetach tag [] okay (detachRequested s))
    exact ⟨_, (exec_request_ready (k := .requestDetach) h rfl).trans
        (congrArg _ (serveRequestDetach_begins hs (mt detachBarred_iff.mp free))),
      toReleasing_releasing before, origin.trans (congrArg Det.origin asked), path.trans (congrArg Det.path asked),
      answeredFirst_answered (s := detachRequested s) h (toReleasing_told _)⟩
  · obtain ⟨-, -, -, origin, -⟩ := toReleasing_kept (answeredFirst .requestDetach tag [] okay s)
    exact ⟨_, (exec_request_ready (k := .requestDetach) h rfl).trans (congrArg _ (serveRequestDetach_asked hs)),
      released _ _, origin.trans (congrArg Det.origin (det _ _)), allowed h⟩
  · refine exec_request_answered (k := .requestDetach) h rfl ?_
    rcases hs with ⟨hs, bars⟩ | ⟨hs, hs'⟩
    · exact serveRequestDetach_barred hs (detachBarred_iff.mpr bars)
    · exact serveRequestDetach_elsewhere hs hs'
  · have run := deadline_expires consentExpired rfl held timer hs due
    rw [consentExpired_allow (s := runTo d s) act] at run
    exact ⟨_, congrArg Host.Outcome.next run, toReleasing_releasing (.refl _ _)⟩
  · have run := deadline_expires consentExpired rfl held timer hs due
    rw [consentExpired_deny (s := runTo d s) act] at run
    exact ⟨_, congrArg Host.Outcome.next run, endAttempt_ended (.refl _) back⟩
  · exact congrArg Host.Outcome.next
      (deadline_idle consentExpired rfl held (.inl fun here => off.elim (fun h => h here.2) (fun h => h here.1)))

end Sys2Proof.Machine

/-!
A wake episode that a release follows (R154, R156): SPU stays WAKING in ACTIVE, so no choice of mode changes anything, and
PE's forced posture is the only further cause that BM's entry to RELEASING can add.
-/
namespace Sys2Proof.Machine

open Sys2Proof.Claims

variable {s t u v w x : State} {m : List Part} {tr : Trigger}

/-! ### The triggers while SPU is WAKING (R147) -/

theorem setTrigger_state (tr : Trigger) (r : TriggerRec) (spu : Spu) : (setTrigger tr r spu).state = spu.state := by
  cases tr <;> rfl

/-- R149: a trigger that matures advises a host that is awake alone. -/
theorem mature_waking (h : s.spu.state = .waking) : (mature tr s).spu.state = .waking := by
  have state := (setTrigger_state tr { triggerRec tr s.spu with timer := none, matured := true } s.spu).trans h
  unfold mature
  dsimp only
  rw [if_neg (by simp [state])]
  exact state

theorem evalTrigger_waking (h : s.spu.state = .waking) : (evalTrigger tr s).spu.state = .waking := by
  have begins : (triggerBegins tr s).spu.state = .waking := by
    unfold triggerBegins
    dsimp only
    split
    · exact mature_waking ((setTrigger_state _ _ _).trans h)
    · exact (setTrigger_state _ _ _).trans h
  have ends : (triggerEnds tr s).spu.state = .waking := by
    have state := (setTrigger_state tr TriggerRec.idle s.spu).trans h
    unfold triggerEnds
    dsimp only
    split
    · split
      · rw [offer_spu, state]
        rfl
      · exact state
    · exact state
  unfold evalTrigger
  split
  · exact h
  · split
    · exact begins
    · exact ends

theorem spuView_waking (h : s.spu.state = .waking) : (spuView s).spu.state = .waking := by
  let viewed : State := { s with spu := { s.spu with view := viewOf s.pe } }
  have start : viewed.spu.state = .waking := h
  unfold spuView
  dsimp only
  split
  · exact eitherOrder_holds (P := fun v => v.spu.state = .waking) (evalTrigger_waking (evalTrigger_waking start))
      (evalTrigger_waking (evalTrigger_waking start))
  · exact evalTrigger_waking (evalTrigger_waking start)

/-! ### In an episode (R156) -/

/-- `v` is in the wake episode of `x`, in ACTIVE, with DETACH_BUTTON among its causes. -/
structure InEpisode (x v : State) : Prop where
  state : v.spu.state = .waking
  mode : v.spu.mode = .active
  button : bitHas v.spu.causes WakeCause.detachButton.idx = true
  episode : Part.episode.Same x v

theorem InEpisode.through (h : InEpisode x v) (c : Changes m v w)
    (hm : ∀ p ∈ [Part.spuState, .mode, .causes, .episode], p ∉ m) : InEpisode x w := by
  have state : w.spu.state = v.spu.state := c.same .spuState (hm _ (by decide))
  have mode : w.spu.mode = v.spu.mode := c.same .mode (hm _ (by decide))
  have causes : (w.spu.pending, w.spu.causes) = (v.spu.pending, v.spu.causes) := c.same .causes (hm _ (by decide))
  exact ⟨state.trans h.state, mode.trans h.mode, (Prod.mk.inj causes).2 ▸ h.button,
    h.episode.trans (c.same .episode (hm _ (by decide)))⟩

theorem spuView_inEpisode (h : InEpisode x v) : InEpisode x (spuView v) := by
  have c := spuView_changes v
  have mode : (spuView v).spu.mode = v.spu.mode := c.same .mode (by decide)
  have causes : ((spuView v).spu.pending, (spuView v).spu.causes) = (v.spu.pending, v.spu.causes) :=
    c.same .causes (by decide)
  exact ⟨spuView_waking h.state, mode.trans h.mode, (Prod.mk.inj causes).2 ▸ h.button,
    h.episode.trans (c.same .episode (by decide))⟩

/-- R159: in an episode ACTIVE stands. -/
theorem modeWanted_waking (h : s.spu.state = .waking) : modeWanted s = .active := if_pos (.inr (.inr h))

theorem chooseMode_inEpisode (h : InEpisode x v) : chooseMode v = v :=
  chooseMode_idle ((modeWanted_waking h.state).trans h.mode.symm)

/-- R154: in an episode a cause that counts joins the cause set. -/
theorem cause_waking (c : WakeCause) (h : s.spu.state = .waking) :
    cause c s = s ∨ cause c s = { s with spu := { s.spu with causes := bitAdd s.spu.causes c.idx } } := by
  unfold cause takeCause
  split
  · right
    simp only [h]
  · exact .inl rfl

theorem cause_inEpisode (c : WakeCause) (h : InEpisode x v) : InEpisode x (cause c v) ∧ (cause c v).pe = v.pe := by
  rcases cause_waking c h.state with e | e <;> rw [e]
  · exact ⟨h, rfl⟩
  · exact ⟨⟨h.state, h.mode, bitHas_bitAdd_of_set h.button, h.episode⟩, rfl⟩

theorem breakBase_inEpisode (h : InEpisode x v) : InEpisode x (breakBase v) :=
  peStep_passes (P := InEpisode x) (fun c hv => hv.through c (by decide)) (fun _ => spuView_inEpisode)
    ⟨h.state, h.mode, h.button, h.episode⟩

theorem breakBoth_inEpisode (h : InEpisode x v) : InEpisode x (breakBoth v) :=
  peStep_passes (P := InEpisode x) (fun c hv => hv.through c (by decide)) (fun _ => spuView_inEpisode)
    ⟨h.state, h.mode, h.button, h.episode⟩

theorem compareStream_inEpisode (h : InEpisode x v) : InEpisode x (compareStream v) := by
  unfold compareStream resumeStream
  split
  · split
    · exact h
    · have resumed : InEpisode x (sendBase (.setPeriod (basePeriod v.spu.mode))
          { v with bm := { v.bm with stream := .running, quiesce := none } }) := ⟨h.state, h.mode, h.button, h.episode⟩
      exact breakBase_inEpisode (resumed.through (sfeView_changes _) (by decide))
  · split
    · exact h.through (quiesceStream_changes v) (by decide)
    · exact h

/-! ### The start of the episode (R156, R160) -/

theorem sfeMode_inEpisode (old : PartMode) (h : InEpisode x v) : InEpisode x (sfeMode old v) := by
  unfold sfeMode
  rw [if_neg (by simp [h.mode])]
  split
  · have broken := breakBoth_inEpisode h
    exact ⟨broken.state, broken.mode, broken.button, broken.episode⟩
  · exact ⟨h.state, h.mode, h.button, h.episode⟩

theorem bmMode_inEpisode (old : PartMode) (h : InEpisode x v) : InEpisode x (bmMode old v) := by
  unfold bmMode
  split
  · exact ⟨h.state, h.mode, h.button, h.episode⟩
  · exact compareStream_inEpisode h

/-- R156, R159, R160: the choice of mode at the start of an episode. -/
theorem chooseMode_begins (h : s.spu.state = .waking) (hc : bitHas s.spu.causes WakeCause.detachButton.idx = true) :
    InEpisode s (chooseMode s) := by
  unfold chooseMode
  rw [modeWanted_waking h]
  split
  · rename_i stands
    exact ⟨h, stands.symm, hc, rfl⟩
  · have chosen : InEpisode s { s with spu := { s.spu with mode := .active } } := ⟨h, rfl, hc, rfl⟩
    have moved := bmMode_inEpisode s.spu.mode ((sfeMode_inEpisode s.spu.mode chosen).through (smMode_changes _) (by decide))
    unfold changeMode peMode
    rw [if_neg (by simp [moved.mode])]
    exact moved

/-- The posture value survives a discontinuity (R48). -/
theorem startOver_value {α : Type} (l : Lock α) : (startOver l).value = l.value := by
  unfold startOver
  split <;> rfl

theorem settled_posture (old p : Pe) : (settled old p).posture = p.posture := by
  unfold settled
  dsimp only
  split <;> rfl

theorem breakBase_value (s : State) : (breakBase s).pe.posture.value = s.pe.posture.value := by
  rw [breakBase, peDiscontinuity, peStep_pe spuView_pe, settled_posture]
  exact startOver_value _

theorem breakBoth_value (s : State) : (breakBoth s).pe.posture.value = s.pe.posture.value := by
  rw [breakBoth, peDiscontinuity, peStep_pe spuView_pe, settled_posture]
  exact startOver_value _

theorem Changes.value_eq (c : Changes m s t) (hm : .locks ∉ m) : t.pe.posture.value = s.pe.posture.value :=
  congrArg Lock.value (Prod.mk.inj (c.same .locks hm)).1

theorem compareStream_value (s : State) : (compareStream s).pe.posture.value = s.pe.posture.value := by
  unfold compareStream resumeStream
  split
  · split
    · rfl
    · exact (breakBase_value _).trans ((sfeView_changes _).value_eq (by decide))
  · split
    · exact (quiesceStream_changes s).value_eq (by decide)
    · rfl

/-- R48, R160: a choice of mode leaves the posture value. -/
theorem chooseMode_value (s : State) : (chooseMode s).pe.posture.value = s.pe.posture.value := by
  have sensing : ∀ old v, (sfeMode old v).pe.posture.value = v.pe.posture.value := fun old v => by
    unfold sfeMode
    split
    · rfl
    · split
      · exact breakBoth_value v
      · rfl
  have stream : ∀ old v, (bmMode old v).pe.posture.value = v.pe.posture.value := fun old v => by
    unfold bmMode
    split
    · rfl
    · exact compareStream_value v
  unfold chooseMode changeMode
  split
  · rfl
  · exact (((peMode_changes _).value_eq (by decide)).trans (stream _ _)).trans
      (((smMode_changes _).value_eq (by decide)).trans (sensing _ _))

theorem compareStream_wanted (h : streamWanted s = true) : (compareStream s).bm.stream = .running := by
  unfold compareStream resumeStream
  rw [if_pos h]
  split
  · assumption
  · rw [(breakBase_changes _).bm_eq (by decide), sfeView_bm]
    rfl

/-- R71, R72, R156: an episode that begins in ATTACHED finds the stream RUNNING, or resumes it with the change to ACTIVE. -/
theorem chooseMode_streams (h : s.spu.state = .waking) (hs : s.bm.state = .attached)
    (runs : s.spu.mode ≠ .active ∨ s.bm.stream = .running) : (chooseMode s).bm.stream = .running := by
  unfold chooseMode
  rw [modeWanted_waking h]
  split
  · exact runs.resolve_left fun g => g (Eq.symm ‹_›)
  · let chosen : State := { s with spu := { s.spu with mode := .active } }
    let scanned := smMode (sfeMode s.spu.mode chosen)
    have sensing : Changes [.reader, .display, .baseSamples, .locks, .freshness, .reported, .spuState, .view, .triggers,
        .scanPeriod, .link, .queue, .choices] chosen scanned :=
      ((sfeMode_changes s.spu.mode chosen).mono (by decide)).step (smMode_changes _) (by decide)
    have same : scanned.bm.state = s.bm.state := sensing.same .bmState (by decide)
    have state := same.trans hs
    have mode : scanned.spu.mode = .active := sensing.same .mode (by decide)
    have moved : (bmMode s.spu.mode scanned).bm.stream = .running := by
      unfold bmMode
      split
      · rename_i still
        obtain ⟨-, still, -⟩ := still
        exact still
      · exact compareStream_wanted (by simp [streamWanted, state, mode])
    exact (congrArg Bm.stream ((peMode_changes _).bm_eq (by decide))).trans moved

/-! ### A forced posture in an episode (R35, R36, R152) -/

/-- `v` is in the episode of `x`, and its causes are these where its posture value is this one. -/
def CausedBy (x : State) (value : Posture) (causes : BitVec 6) (v : State) : Prop :=
  InEpisode x v ∧ (v.pe.posture.value = value → v.spu.causes = causes)

theorem CausedBy.through {value : Posture} {causes : BitVec 6} (h : CausedBy x value causes v) (c : Changes m v w)
    (hm : ∀ p ∈ [Part.spuState, .mode, .causes, .episode, .locks], p ∉ m) : CausedBy x value causes w := by
  obtain ⟨within, kept⟩ := h
  have same : (w.spu.pending, w.spu.causes) = (v.spu.pending, v.spu.causes) := c.same .causes (hm _ (by decide))
  refine ⟨within.through c fun p hp => hm p (List.mem_append_left [Part.locks] hp), fun hv => ?_⟩
  rw [(Prod.mk.inj same).2]
  exact kept ((c.value_eq (hm _ (by decide))).symm.trans hv)

theorem compareStream_causedBy {value : Posture} {causes : BitVec 6} (h : CausedBy x value causes v) :
    CausedBy x value causes (compareStream v) := by
  obtain ⟨within, kept⟩ := h
  have same : ((compareStream v).spu.pending, (compareStream v).spu.causes) = (v.spu.pending, v.spu.causes) :=
    (compareStream_changes v).same .causes (by decide)
  refine ⟨compareStream_inEpisode within, fun hv => ?_⟩
  rw [(Prod.mk.inj same).2]
  exact kept ((compareStream_value v).symm.trans hv)

/-- R36, R152: a forced posture is a possible cause, and only where it changes the value. -/
theorem peForcing_causedBy (h : InEpisode x v) : CausedBy x v.pe.posture.value v.spu.causes (peForcing v) := by
  unfold peForcing
  split
  · exact ⟨h, fun _ => rfl⟩
  · let p := v.pe.force (situationNow v)
    let P : State → Prop := fun w => InEpisode x w ∧ w.pe.posture.value = p.posture.value ∧
      (v.pe.posture.value = p.posture.value → w.spu.causes = v.spu.causes)
    have quiet : ∀ {n : List Part} {w w' : State}, Changes n w w' →
        (∀ q ∈ [Part.spuState, .mode, .causes, .episode, .locks], q ∉ n) → P w → P w' := fun c hn hw => by
      obtain ⟨within, value, kept⟩ := hw
      exact ⟨within.through c fun q hq => hn q (List.mem_append_left [Part.locks] hq),
        (c.value_eq (hn _ (by decide))).trans value, fun g =>
          (Prod.mk.inj (c.same .causes (hn _ (by decide)))).2.trans (kept g)⟩
    have view : ∀ w, P w → P (spuView w) := fun w hw => by
      obtain ⟨within, value, kept⟩ := hw
      exact ⟨spuView_inEpisode within, ((spuView_changes w).value_eq (by decide)).trans value, fun g =>
        (Prod.mk.inj ((spuView_changes w).same .causes (by decide))).2.trans (kept g)⟩
    have report : ∀ w, P w → P (spuPosture (decide (v.pe.posture.value ≠ p.posture.value)) w) := fun w hw => by
      unfold spuPosture
      split
      · rename_i changed
        obtain ⟨within, value, -⟩ := view w hw
        obtain ⟨caused, pe⟩ := cause_inEpisode .postureChanged within
        exact ⟨caused, by rw [pe, value], fun g => absurd g (of_decide_eq_true changed)⟩
      · exact view w hw
    have start : P { v with pe := settled v.pe p } :=
      ⟨⟨h.state, h.mode, h.button, h.episode⟩, congrArg Lock.value (settled_posture _ _), fun _ => rfl⟩
    obtain ⟨within, value, kept⟩ : P (peChange p v) := peStep_passes (fun c => quiet c (by decide)) report start
    exact ⟨within, fun hv => kept (hv.symm.trans value)⟩

/-- R62: BM's report of RELEASING within the episode. -/
theorem bmReport_causedBy (h : InEpisode x s) :
    CausedBy x s.pe.posture.value s.spu.causes (bmReport false compareStream s) := by
  let P : State → Prop := fun v =>
    InEpisode x v ∧ v.pe.posture.value = s.pe.posture.value ∧ v.spu.causes = s.spu.causes
  let Q := CausedBy x s.pe.posture.value s.spu.causes
  have weaken : ∀ v, P v → Q v := fun v hv => ⟨hv.1, fun _ => hv.2.2⟩
  have keeps : ∀ {n : List Part} {v w : State}, Changes n v w →
      (∀ p ∈ [Part.spuState, .mode, .causes, .episode, .locks], p ∉ n) → P v → P w := fun c hn hv =>
    ⟨hv.1.through c fun p hp => hn p (List.mem_append_left [Part.locks] hp),
      (c.value_eq (hn _ (by decide))).trans hv.2.1,
      (Prod.mk.inj (c.same .causes (hn _ (by decide)))).2.trans hv.2.2⟩
  have reported : ∀ v, P v → Q (peBm v) := fun v hv => by
    obtain ⟨within, value, causes⟩ := hv
    let y : State :=
      { v with pe := { v.pe with serial := if BmState.hasBase v.bm.state = true then v.pe.serial else none } }
    have forced := peForcing_causedBy (v := y) ⟨within.state, within.mode, within.button, within.episode⟩
    rw [show y.pe.posture.value = s.pe.posture.value from value, show y.spu.causes = s.spu.causes from causes] at forced
    exact forced
  have start : P (sfeView s) := keeps (v := s) (sfeView_changes s) (by decide) ⟨h, rfl, rfl⟩
  have actsP : ∀ v, P v → P (compareStream v) := fun v hv =>
    ⟨compareStream_inEpisode hv.1, (compareStream_value v).trans hv.2.1,
      (Prod.mk.inj ((compareStream_changes v).same .causes (by decide))).2.trans hv.2.2⟩
  unfold bmReport
  dsimp only
  split
  · exact weaken _ (actsP _ start)
  · refine anyOrder_turns (P := P) (Q := Q) (fun v => keeps (nextChoice_changes v) (by decide))
      (fun v hv => hv.through (nextChoice_changes v) (by decide)) reported (fun v hv => ?_) (fun v hv => ?_) actsP
      (fun v => compareStream_causedBy) start
    · show P (chooseMode v)
      rwa [chooseMode_inEpisode hv.1]
    · show Q (chooseMode v)
      rwa [chooseMode_inEpisode hv.1]

/-- R89, R156: BM's entry to RELEASING within the episode. -/
theorem toReleasing_causedBy (h : InEpisode x s) :
    CausedBy x s.pe.posture.value s.spu.causes (toReleasing s) := by
  let Q := CausedBy x s.pe.posture.value s.spu.causes
  have reported : Q (bmReport false compareStream (releasingEntered s)) :=
    bmReport_causedBy (s := releasingEntered s) ⟨h.state, h.mode, h.button, h.episode⟩
  have filed : Q (releasingFiled s) := by
    refine noticePen_passes (P := Q) (fun c hv => hv.through c (by decide)) (fun v hv => ?_) ?_
    · rwa [chooseMode_inEpisode hv.1]
    · exact ⟨⟨reported.1.state, reported.1.mode, reported.1.button, reported.1.episode⟩, reported.2⟩
  rw [toReleasing_eq]
  split
  · exact filed.through (openCheck_changes _) (by decide)
  · exact filed

end Sys2Proof.Machine

/-!
A debounced press of the detach button (R81, R83, R84, R87, R92, R152): SPU is told first, and then BM takes the press by
its state. What SPU does with it leaves everything that BM's act is measured by.
-/
namespace Sys2Proof.Machine

open Sys2Proof.Claims

variable {s t u : State} {d : Nat}

/-! ### SPU is told first (R81, R152) -/

/-- The press has been debounced: the hold time is over (R81). -/
def pressedAt (d : Nat) (s : State) : State := { runTo d s with det := s.det.pressed }

/-- SPU has taken the press, and BM takes it next. -/
def pressTold (d : Nat) (s : State) : State := cause .detachButton (pressedAt d s)

theorem exec_press (held : s.held = none) (hold : s.det.hold = some d) (down : s.det.dbtn = .asserted) :
    exec .buttonHoldExpiry s = .next (bmPress (pressTold d s)) := by
  rw [exec_buttonHoldExpiry held hold]
  exact congrArg Host.Outcome.next (buttonHeld_asserted (s := runTo d s) down)

theorem pressedAt_changes (d : Nat) (s : State) : Changes [.button] (runTo d s) (pressedAt d s) := by
  refine ⟨fun p hp => ?_⟩
  cases p <;> first | rfl | exact absurd (by decide) hp

theorem pressTold_changes (d : Nat) (s : State) : Changes ([.button] ++ wakeParts) (runTo d s) (pressTold d s) :=
  ((pressedAt_changes d s).mono (by decide)).step (cause_changes _ _) (by decide)

theorem pressTold_told (d : Nat) (s : State) : Told s.lc (pressTold d s).lc := (cause_relayed .detachButton (pressedAt d s)).told

theorem pressTold_det (d : Nat) (s : State) : (pressTold d s).det = s.det.pressed :=
  (cause_changes .detachButton (pressedAt d s)).det_eq (by decide)

theorem pressTold_state (d : Nat) (s : State) : (pressTold d s).bm.state = s.bm.state :=
  (pressTold_changes d s).same .bmState (by decide)

theorem pressTold_rba (d : Nat) (s : State) : (pressTold d s).rba = s.rba := (pressTold_changes d s).rba_eq (by decide)

theorem pressTold_settings (d : Nat) (s : State) : (pressTold d s).settings = s.settings :=
  (pressTold_changes d s).settings_eq (by decide)

theorem pressTold_leads (d : Nat) (s : State) : Leads (runTo d s) (pressTold d s) :=
  .of_told (pressTold_changes d s) (by decide) (congrArg Rba.base (pressTold_rba d s)) (pressTold_told d s)

theorem pressTold_barred (d : Nat) (s : State) :
    detachBarred (pressTold d s) = true ↔
      s.sfe.lid.level = .asserted ∨ bitHas s.cm.latched Cond.latchStuck.idx = true := by
  have magnets : ((pressTold d s).sfe.lid, (pressTold d s).sfe.fold) = (s.sfe.lid, s.sfe.fold) :=
    (pressTold_changes d s).same .magnets (by decide)
  have latched : (pressTold d s).cm.latched = s.cm.latched := (pressTold_changes d s).same .latched (by decide)
  rw [detachBarred_iff, (Prod.mk.inj magnets).1, latched]

/-- R152, R154: a press that does not wake the part is at most noted as a cause. -/
theorem pressTold_noted (h : ¬ (s.spu.state = .asleep ∧ causeCounts .detachButton s = true)) :
    Changes [.button, .causes] (runTo d s) (pressTold d s) := by
  have noted : Changes [.causes] (pressedAt d s) (pressTold d s) := by
    unfold pressTold cause takeCause
    split
    · rename_i counts
      have waits : ∀ pending causes, Changes [.causes] (pressedAt d s)
          { pressedAt d s with spu := { (pressedAt d s).spu with pending := pending, causes := causes } } := fun _ _ => by
        refine ⟨fun p hp => ?_⟩
        cases p <;> first | rfl | exact absurd (by decide) hp
      cases hs : (pressedAt d s).spu.state with
      | asleep => exact absurd ⟨hs, counts⟩ h
      | suspending => exact waits _ _
      | waking => exact waits _ _
      | _ => exact .refl _ _
    · exact .refl _ _
  exact ((pressedAt_changes d s).mono (by decide)).step noted (by decide)

/-! ### BM's act by its state (R81, R83, R84, R92) -/

theorem bmPress_elsewhere (h : ¬ (s.bm.state = .attached ∨ s.bm.state = .detachAsked ∨ s.bm.state = .releasing)) :
    bmPress s = s := by
  unfold bmPress
  cases hs : s.bm.state with
  | attached => exact absurd (.inl hs) h
  | detachAsked => exact absurd (.inr (.inl hs)) h
  | releasing => exact absurd (.inr (.inr hs)) h
  | _ => rfl

theorem bmPress_attached (h : s.bm.state = .attached) : bmPress s = pressAttached s := by simp only [bmPress, h]

theorem bmPress_asked (h : s.bm.state = .detachAsked) : bmPress s = endAttempt .cancelled s := by simp only [bmPress, h]

theorem bmPress_unenergised (h : s.bm.state = .releasing) (he : s.det.energised = false) :
    bmPress s = giveUpLatch .cancelled s := by
  simp only [bmPress, h, pressReleasing, he]
  rfl

theorem bmPress_energised (h : s.bm.state = .releasing) (he : s.det.energised = true) :
    bmPress s = toClosing .cancelled s := by
  simp only [bmPress, h, pressReleasing, he]
  rfl

theorem pressAttached_barred (h : detachBarred s = true) : pressAttached s = s := if_pos h

theorem pressAttached_asks (h : ¬ detachBarred s = true)
    (asks : s.spu.host = .running ∧ bitHas s.lc.grant EventClass.detach.idx = true) : pressAttached s = askConsent s := by
  rw [pressAttached, if_neg h, if_pos asks]

/-- The attempt begins on the STANDING path (R84). -/
def standingBegun (s : State) : State := { s with det := { s.det with origin := some .button, path := some .standing } }

section

variable (h : ¬ detachBarred s = true)
  (asks : ¬ (s.spu.host = .running ∧ bitHas s.lc.grant EventClass.detach.idx = true))

include h asks

theorem pressAttached_denies (hp : s.settings.detach.standing = .deny) :
    pressAttached s = standingRefusal (standingBegun s) := by
  rw [pressAttached, if_neg h, if_neg asks]
  simp only [hp, standingBegun]

theorem pressAttached_allows (hp : s.settings.detach.standing = .allow) :
    pressAttached s = toReleasing (standingBegun s) := by
  rw [pressAttached, if_neg h, if_neg asks]
  simp only [hp, standingBegun]

end

theorem standingBegun_changes (s : State) : Changes [.attempt] s (standingBegun s) := by
  refine ⟨fun p hp => ?_⟩
  cases p <;> first | rfl | exact absurd (by decide) hp

/-! ### The HOST path (R83) -/

/-- BM's and the detach record on entry to DETACH_ASKED (R83). -/
def askedEntered (s : State) : State :=
  { s with
    bm := { s.bm with state := .detachAsked }
    det := { s.det with
      origin := some .button, path := some .host, blink := none, deadline := .consent
      timer := some (s.now + s.settings.detach.consentTimeout) } }

/-- DETACH_REQUEST as BM offers it (R83). -/
def consentAsked (s : State) : Event :=
  .detachRequest s.bm.active s.settings.detach.consentTimeout s.settings.detach.timeoutAction

theorem askConsent_eq (s : State) :
    askConsent s = bmReport false (raceLc (offer (consentAsked s)) compareStream) (askedEntered s) := rfl

theorem askConsent_records (s : State) :
    (askConsent s).bm.state = .detachAsked ∧ (askConsent s).det = (askedEntered s).det := by
  have frame := bmReport_changes (m := reportParts) (a := false) (by decide) (fun v => raceLc_changes (by decide)
    (fun x => (offer_changes (consentAsked s) x).mono (by decide)) (fun x => (compareStream_changes x).mono (by decide)) v)
    (askedEntered s)
  exact ⟨frame.same .bmState (by decide), frame.det_eq (by decide)⟩

theorem askConsent_waits (taking : Taking .detach s.lc) : Waits (consentAsked s) (askConsent s).lc := by
  rw [askConsent_eq]
  exact bmReport_waits (P := fun _ => True) (fun _ _ => trivial) rfl false
    (fun v _ hv => raceLc_turns (P := fun x => Taking .detach x.lc) (Q := fun x => Waits (consentAsked s) x.lc)
      (fun _ hx => hx) (fun _ hx => offer_waits rfl hx) (fun x => (compareStream_told x).taking)
      (fun x => (compareStream_told x).waits rfl) hv) trivial taking

/-! ### The STANDING path (R84) -/

/-- R84, R98: a standing DENY ends the attempt where it begins. -/
theorem standingRefusal_ended (hu : Leads u s) (hs : s.bm.state = .attached) :
    attemptEnded .denied u (standingRefusal s) := by
  let ended : State := attemptOver .denied s
  have told : Changes [.link, .queue] ended (standingRefusal s) := offerResult_changes _ _ _
  have bm : (standingRefusal s).bm = s.bm := told.bm_eq (by decide)
  have det : (standingRefusal s).det = s.det.ended .denied s.now := told.det_eq (by decide)
  have waits : Taking .detach s.lc →
      Waits (.detachResult .denied s.det.origin s.det.path s.bm.active) (standingRefusal s).lc := fun taking =>
    offer_waits (s := ended) rfl taking
  refine ⟨(congrArg Bm.state bm).trans hs, ?_, ?_, ?_, ?_, ?_, fun tx grant => ?_,
    (hu.frame.mono (by decide)).step (standingRefusal_changes s) (by decide)⟩
  · rw [det]; rfl
  · rw [det]; rfl
  · rw [det]; rfl
  · rw [det]; rfl
  · rw [det, hu.ended_blink]
    rfl
  · rw [det, ← hu.active]
    exact (waits (hu.taking ⟨tx, grant⟩)).queued

/-- The press on the STANDING path, before the standing policy is asked. -/
theorem pressBegun_changes (d : Nat) (s : State) :
    Changes ([.button, .attempt] ++ wakeParts) (runTo d s) (standingBegun (pressTold d s)) :=
  ((pressTold_changes d s).mono (by decide)).step (standingBegun_changes _) (by decide)

/-! ### A press in ASLEEP (R81, R152, R156) -/

/-- SPU's record of the wake episode that the press starts, with the mode still to be chosen (R156). -/
def awoken (d : Nat) (s : State) : State :=
  { pressedAt d s with
    spu := s.spu.episode (runTo d s).now s.settings.sleep (bitAdd 0 WakeCause.detachButton.idx) }

theorem InEpisode.begun (h : InEpisode (awoken d s) t) : episodeBegun t.spu.causes (runTo d s) t := by
  have episode := h.episode
  simp only [Part.Same, Prod.mk.injEq] at episode
  obtain ⟨attempt, limit, wake, gap, hwake⟩ := episode
  exact ⟨h.state, rfl, attempt, limit, hwake, gap, wake, h.mode⟩

theorem pressTold_wakes (hs : s.spu.state = .asleep) (counts : causeCounts .detachButton s = true) :
    pressTold d s = chooseMode (awoken d s) := by
  have counts' : causeCounts .detachButton (pressedAt d s) = true := counts
  have state : (pressedAt d s).spu.state = .asleep := hs
  unfold pressTold cause takeCause
  rw [if_pos counts']
  simp only [state]
  rfl

section

variable (hs : s.spu.state = .asleep) (counts : causeCounts .detachButton s = true)

include hs counts

theorem pressBegun_inEpisode : InEpisode (awoken d s) (standingBegun (pressTold d s)) := by
  rw [pressTold_wakes hs counts]
  exact (chooseMode_begins (s := awoken d s) rfl (bitHas_bitAdd_self _ (by decide))).through (standingBegun_changes _)
    (by decide)

theorem pressBegun_records :
    (standingBegun (pressTold d s)).pe.posture.value = s.pe.posture.value ∧
    (standingBegun (pressTold d s)).spu.causes = bitAdd 0 WakeCause.detachButton.idx := by
  rw [pressTold_wakes hs counts]
  exact ⟨chooseMode_value (awoken d s), (Prod.mk.inj ((chooseMode_changes (awoken d s)).same .causes (by decide))).2⟩

theorem pressBegun_streams (attached : s.bm.state = .attached) (runs : s.spu.mode ≠ .active ∨ s.bm.stream = .running) :
    (standingBegun (pressTold d s)).bm.stream = .running := by
  rw [pressTold_wakes hs counts]
  exact chooseMode_streams (s := awoken d s) rfl attached runs

/-- R84, R89, R152, R156: a release that follows the wake-up leaves the part in the episode, and only a forced posture adds
a cause. -/
theorem pressBegun_causedBy :
    CausedBy (awoken d s) s.pe.posture.value (bitAdd 0 WakeCause.detachButton.idx)
      (toReleasing (standingBegun (pressTold d s))) := by
  obtain ⟨value, causes⟩ := pressBegun_records (d := d) hs counts
  have caused := toReleasing_causedBy (pressBegun_inEpisode (d := d) hs counts)
  rwa [value, causes] at caused

end

/-- Settles O39: SPU's part of the press is `pressTold`, and BM's act over it follows its state. -/
theorem pressByState : Obligations.PressByState := by
  intro d s held hold down u pressed barred asks ignored button wakes
  rw [exec_press held hold down]
  have leads := pressTold_leads d s
  have state := pressTold_state d s
  have det := pressTold_det d s
  have counts : wakes ↔ s.spu.state = .asleep ∧ causeCounts .detachButton s = true := by
    simp only [wakes, button, causeCounts, Bool.and_eq_true, decide_eq_true_eq]
    rfl
  have asks' : asks ↔ (pressTold d s).spu.host = .running ∧
      bitHas (pressTold d s).lc.grant EventClass.detach.idx = true := by
    have host : (pressTold d s).spu.host = s.spu.host := (pressTold_changes d s).same .host (by decide)
    have grant : (pressTold d s).lc.grant = s.lc.grant := (pressTold_changes d s).same .grant (by decide)
    rw [host, grant]
  have free : ¬ barred → ¬ detachBarred (pressTold d s) = true := mt (pressTold_barred d s).mp
  have policy : (pressTold d s).settings.detach = s.settings.detach := congrArg Settings.detach (pressTold_settings d s)
  refine ⟨fun stays => ⟨_, rfl, ?_⟩, fun hs nb ha => ⟨_, rfl, ?_⟩, fun hs nb ha hp => ⟨_, rfl, ?_⟩,
    fun hs nb ha hp => ⟨_, rfl, ?_⟩, fun hs => ⟨_, rfl, ?_⟩, fun hs he => ⟨_, rfl, ?_⟩, fun hs he => ⟨_, rfl, ?_⟩⟩
  · have same : bmPress (pressTold d s) = pressTold d s := by
      rcases stays with out | ⟨hs, bars⟩
      · exact bmPress_elsewhere (state.symm ▸ out)
      · rw [bmPress_attached (state.trans hs), pressAttached_barred ((pressTold_barred d s).mpr bars)]
    rw [same]
    exact ⟨det, state, ((runTo_changes d s).mono (by decide)).step (pressTold_changes d s) (by decide)⟩
  · rw [bmPress_attached (state.trans hs), pressAttached_asks (free nb) (asks'.mp ha)]
    obtain ⟨asked, record⟩ := askConsent_records (pressTold d s)
    refine ⟨asked, ?_, fun tx => ?_⟩
    · rw [record]
      simp only [askedEntered, det, policy, leads.now]
      rfl
    · have waits := askConsent_waits ((pressTold_told d s).taking ⟨tx, ha.2⟩)
      rw [consentAsked, leads.active, policy] at waits
      exact waits.queued
  · rw [bmPress_attached (state.trans hs), pressAttached_denies (free nb) (mt asks'.mpr ha) (policy ▸ hp)]
    have begun : Leads (pressTold d s) (standingBegun (pressTold d s)) :=
      .of_told (standingBegun_changes _) (by decide) rfl (.refl _)
    have refusal := standingRefusal_changes (standingBegun (pressTold d s))
    have record : (standingRefusal (standingBegun (pressTold d s))).det = _ := offer_det _ _
    exact ⟨standingRefusal_ended (leads.trans begun) (state.trans hs), by rw [record]; rfl, by rw [record]; rfl,
      (refusal.rba_eq (by decide)).trans (pressTold_rba d s),
      (refusal.settings_eq (by decide)).trans (pressTold_settings d s)⟩
  · rw [bmPress_attached (state.trans hs), pressAttached_allows (free nb) (mt asks'.mpr ha) (policy ▸ hp)]
    obtain ⟨-, -, -, origin, path⟩ := toReleasing_kept (standingBegun (pressTold d s))
    refine ⟨toReleasing_begun_after (pressBegun_changes d s) (by decide), origin, path, fun sleeps => ?_, fun wakes => ?_⟩
    · have noted := pressTold_noted (d := d) (mt counts.mpr sleeps)
      exact toReleasing_releasing ((noted.mono (by decide)).step (standingBegun_changes _) (by decide))
    · obtain ⟨asleep, counts⟩ := counts.mp wakes
      obtain ⟨within, alone⟩ := pressBegun_causedBy (d := d) asleep counts
      refine ⟨within.begun, within.button, alone, fun runs => ?_⟩
      rw [toReleasing_stream, pressBegun_streams asleep counts hs runs]
      rfl
  · rw [bmPress_asked (state.trans hs)]
    exact ⟨fun h => endAttempt_ended leads (det ▸ h), fun h => endAttempt_afresh leads (det ▸ h)⟩
  · rw [bmPress_unenergised (state.trans hs) (det ▸ he)]
    obtain ⟨back, afresh⟩ := giveUpLatch_ends .cancelled leads
    exact ⟨giveUpLatch_latch _ _, fun h => back (det ▸ h), fun h => afresh (det ▸ h)⟩
  · rw [bmPress_energised (state.trans hs) (det ▸ he)]
    exact toClosing_closing leads (det ▸ rfl) (det ▸ rfl)

end Sys2Proof.Machine

/-!
The grant table and the capacity after every step (R111, R114).

RBA computes the grant table wherever a claim is filed, replaced or withdrawn, and wherever the capacity is taken from the
bands; each of these computations leaves the table as R114 gives it, whatever it was before (`Railed.claims`). Every other
act leaves RBA's record and the bands, which its `<operation>_changes` lemma says. In the middle of a scan the bands have
moved and the capacity has not: `Railed False` asks for the table alone.
-/
namespace Sys2Proof.Machine

open Sys2Proof.Claims

variable {C : Prop} {s t u : State}

/-! ### The table and the capacity -/

/-- The grant table is the one of the capacity and the claims (R114), and the capacity, where `C` asks for it, that of the
bands (R111). -/
def Railed (C : Prop) (s : State) : Prop :=
  s.rba.grants = grantTable s.rba.capacity s.rba.base s.rba.latch s.rba.pen ∧
  (C → s.rba.capacity = capacityOf s.sm.supply s.sm.thermal)

theorem railed_iff (s : State) :
    Railed True s ↔
      s.rba.grants = grantTable s.rba.capacity s.rba.base s.rba.latch s.rba.pen ∧
      s.rba.capacity = capacityOf s.sm.supply s.sm.thermal := by
  simp only [Railed, true_implies]

theorem Railed.through {m : List Part} (h : Railed C s) (c : Changes m s t) (hm : ∀ p ∈ .bands :: rbaParts, p ∉ m) :
    Railed C t := by
  have rba : t.rba = s.rba := c.rba_eq fun p hp => hm p (List.mem_cons_of_mem _ hp)
  have bands := c.same .bands (hm _ (by decide))
  simp only [Part.Same, Prod.mk.injEq] at bands
  obtain ⟨supply, -, thermal, -⟩ := bands
  rwa [Railed, rba, supply, thermal]

/-- R114: a new claim table, computed. -/
theorem Railed.claims {r : Rba} (h : Railed C s) (hr : r.capacity = s.rba.capacity) :
    Railed C { s with rba := r.compute } := ⟨rfl, fun hc => hr.trans (h.2 hc)⟩

/-- R114: the grants never exceed the capacity. -/
theorem Railed.law (h : Railed C s) : lawGrants s := by
  rw [lawGrants, h.1]
  exact grantTable_le _ _ _ _

/-- The operation keeps the table, and the capacity where it is asked for. -/
abbrev KeepsRail (f : State → State) : Prop := ∀ {C s}, Railed C s → Railed C (f s)

theorem keepsRail_of_changes {m : List Part} {f : State → State} (c : ∀ v, Changes m v (f v))
    (hm : ∀ p ∈ .bands :: rbaParts, p ∉ m) : KeepsRail f := fun h => h.through (c _) hm

theorem KeepsRail.when {f : State → State} (b : Bool) (hf : KeepsRail f) : KeepsRail (if b = true then f else id) :=
  fun h => by
  cases b with
  | false => exact h
  | true => exact hf h

theorem KeepsRail.anyOrder {f g k : State → State} (hf : KeepsRail f) (hg : KeepsRail g) (hk : KeepsRail k) :
    KeepsRail (anyOrder f g k) :=
  fun h => anyOrder_keeps (fun _ h => h) (fun _ => hf) (fun _ => hg) (fun _ => hk) h

theorem KeepsRail.raceLc {emit act : State → State} (he : KeepsRail emit) (ha : KeepsRail act) :
    KeepsRail (raceLc emit act) :=
  fun h => raceLc_keeps (fun _ h => h) (fun _ => he) (fun _ => ha) h

theorem offer_rail (e : Event) : KeepsRail (offer e) := keepsRail_of_changes (offer_changes e) (by decide)

theorem answer_rail (place : Nat) (r : Reply) : KeepsRail (answer place r) :=
  keepsRail_of_changes (answer_changes place r) (by decide)

/-! ### The claim of PDC (R128, R129) -/

theorem filePen_rail (requested : Nat) : KeepsRail (filePen requested) := fun h => Railed.claims h rfl

theorem stopCharging_rail : KeepsRail stopCharging := fun h => by
  unfold stopCharging withdrawPen
  split
  · exact h
  · exact Railed.claims h rfl

theorem enterPhase_rail (ph : ChargePhase) : KeepsRail (enterPhase ph) := fun {C s} h => by
  have answered : ∀ v, Railed C v → Railed C (if v.pdc.grant = 0 then waitGrant ph v else runPhase ph v) := fun v hv => by
    split
    · exact hv.through (waitGrant_changes ph v) (by decide)
    · exact hv.through (runPhase_changes ph v) (by decide)
  have filed := filePen_rail (phaseAmount s.settings.pen ph) h
  refine answered _ ?_
  split
  · exact filed
  · exact filed

theorem reachFull_rail : KeepsRail reachFull := fun h => stopCharging_rail h

theorem suspendPen_rail : KeepsRail suspendPen := fun h => stopCharging_rail h

theorem enterFault_rail (reason : PenFault) : KeepsRail (enterFault reason) := fun {C s} h => by
  have stopped : ∀ p, Railed C { stopCharging s with pdc := p } := fun _ => stopCharging_rail h
  exact (stopped _).through (rise_changes _ _ _) (by decide)

theorem phaseChoice_rail : KeepsRail phaseChoice := fun h => by
  unfold phaseChoice
  split
  · exact h
  · split
    · exact enterFault_rail _ h
    · split
      · exact reachFull_rail h
      · split
        · exact suspendPen_rail h
        · exact enterPhase_rail _ (h.through (openCycle_changes _) (by decide))

theorem changeReasons_rail (new : BitVec 3) : KeepsRail (changeReasons new) := fun {C s} h => by
  have changed : Railed C { s with pdc := { s.pdc with reasons := new } } := h
  unfold changeReasons
  dsimp only
  split
  · exact suspendPen_rail changed
  · split
    · exact phaseChoice_rail changed
    · exact changed

theorem advancePhase_rail (mv : Nat) : KeepsRail (advancePhase mv) := fun h => by
  unfold advancePhase
  split
  · exact enterPhase_rail _ h
  · split
    · exact enterPhase_rail _ h
    · exact h

theorem ownHandling_rail (st : PenStatus) : KeepsRail (ownHandling st) := fun h => by
  unfold ownHandling
  split
  · exact phaseChoice_rail h
  · exact advancePhase_rail _ h
  · exact advancePhase_rail _ h
  · split
    · exact phaseChoice_rail h
    · exact h
  · exact h

theorem takeStatus_rail (st : PenStatus) : KeepsRail (takeStatus st) := fun {C s} h => by
  have taken : Railed C { s with pdc := { s.pdc with last := some st } } := h
  unfold takeStatus
  dsimp only
  split
  · exact enterFault_rail _ taken
  · split
    · exact changeReasons_rail _ taken
    · exact ownHandling_rail _ (changeReasons_rail _ taken)

theorem removePen_rail : KeepsRail removePen := fun {C s} h => by
  have stopped : Railed C (fallFault (stopCharging s).pdc.fault (stopCharging s)) :=
    (stopCharging_rail h).through (fallFault_changes _ _) (by decide)
  exact stopped

theorem pdcStep_rail (c : Option WakeCause) {f : State → State} (hf : KeepsRail f) : KeepsRail (pdcStep c f) := fun h => by
  have emits : ∀ (news : Bool) e, KeepsRail (if news = true then offer e else id) := fun news e =>
    KeepsRail.when news (offer_rail e)
  unfold pdcStep
  dsimp only
  split
  · exact emits _ _ (hf h)
  · exact KeepsRail.raceLc (emits _ _) (keepsRail_of_changes (spuPen_changes c) (by decide)) (hf h)

theorem pdcSupply_rail : KeepsRail pdcSupply := pdcStep_rail _ fun h => changeReasons_rail _ h

theorem noticePen_rail : KeepsRail noticePen := keepsRail_of_changes noticePen_changes (by decide)

theorem penRemoved_rail : KeepsRail penRemoved := fun {C s} h => by
  have removed := pdcStep_rail (some .penRemoved) removePen_rail (s := { s with pdc := { s.pdc with removal := none } }) h
  exact removed.through (penAfresh_changes _) (by decide)

theorem penStatusArrived_rail (intact : Bool) (st : PenStatus) : KeepsRail (penStatusArrived intact st) := fun h => by
  have endsPoll : KeepsRail (pdcStep none fun s => endPoll (takeStatus (saturateStatus st) s)) :=
    pdcStep_rail _ fun h => (takeStatus_rail _ h).through (endPoll_changes _) (by decide)
  unfold penStatusArrived handleStatus
  dsimp only
  split
  · split
    · exact endsPoll (pdcStep_rail _ (keepsRail_of_changes enterIdentifying_changes (by decide))
        (pdcStep_rail _ removePen_rail h))
    · exact endsPoll h
  · exact h

theorem pollUnanswered_rail : KeepsRail pollUnanswered := pdcStep_rail _ fun {C s} h => by
  have unanswered : ∀ p, Railed C { s with pdc := p } := fun _ => h
  dsimp only
  split
  · exact enterFault_rail _ (unanswered _)
  · exact unanswered _

theorem penReading_rail (current : Nat) : KeepsRail (penReading current) := fun h => by
  unfold penReading
  split
  · split
    · split
      · exact h
      · split
        · exact pdcStep_rail _ reachFull_rail h
        · exact h
    · exact h
  · exact h

theorem prechargeExpired_rail : KeepsRail prechargeExpired := fun h => by
  unfold prechargeExpired
  split
  · exact pdcStep_rail _ (enterFault_rail _) h
  · exact h

theorem safetyExpired_rail : KeepsRail safetyExpired := fun h => by
  unfold safetyExpired
  split
  · exact pdcStep_rail _ (enterFault_rail _) h
  · exact h

theorem replacePen_rail (p : PenSettings) : KeepsRail (replacePen p) := pdcStep_rail _ fun {C s} h => by
  have reasons : ∀ new, Railed C (changeReasons new { s with settings := { s.settings with pen := p } }) :=
    fun new => changeReasons_rail new h
  dsimp only
  split
  · exact enterPhase_rail _ (reasons _)
  · exact reasons _

/-! ### The claims of BM (R112, R113) -/

theorem fileBase_rail (amount : Nat) : KeepsRail (fileBase amount) := fun h => noticePen_rail (Railed.claims h rfl)

theorem fileLatch_rail : KeepsRail fileLatch := fun h => noticePen_rail (Railed.claims h rfl)

theorem withdrawBase_rail : KeepsRail withdrawBase := fun h => by
  unfold withdrawBase
  split
  · exact h
  · exact noticePen_rail (Railed.claims h rfl)

theorem withdrawLatch_rail : KeepsRail withdrawLatch := fun h => by
  unfold withdrawLatch
  split
  · exact h
  · exact noticePen_rail (Railed.claims h rfl)

theorem bmReport_rail (attach : Bool) {acts : State → State} (ha : ∀ v, Changes actParts v (acts v)) :
    KeepsRail (bmReport attach acts) := keepsRail_of_changes (bmReport_changes (by decide) ha) (by decide)

theorem bmReport_id_rail (attach : Bool) : KeepsRail (bmReport attach id) := bmReport_rail attach fun v => .refl _ v

theorem toPowering_rail (amount : Nat) : KeepsRail (toPowering amount) := fun {C s} h => by
  have reported : Railed C (bmReport false id { s with bm := s.bm.powering }) :=
    bmReport_id_rail false (s := { s with bm := s.bm.powering }) h
  exact (fileBase_rail amount reported).through (powerIfGranted_changes _) (by decide)

theorem lossOfPowerAfter_rail {first : State → State} (hf : Telling first) : KeepsRail (lossOfPowerAfter first) :=
  fun {C s} h => by
  have reported : Railed C (bmReport false (outageActs first s.bm.active) (outage s)) :=
    bmReport_rail false (fun v => (outageActs_changes hf s.bm.active v).mono (by decide)) (s := outage s) h
  rw [lossOfPowerAfter_eq]
  exact (fileBase_rail (baseAmount s) reported).through (powerIfGranted_changes _) (by decide)

theorem endAttemptAfter_rail {first : State → State} (hf : Telling first) (o : DetachOutcome) :
    KeepsRail (endAttemptAfter first o) := fun {C s} h => by
  have telling := hf.atEnd o s.bm.active
  have begun : Railed C (attemptOver o s).nextChoice := h
  cases hu : s.det.unpowered with
  | true =>
    rcases endAttemptAfter_lost (o := o) first hu with e | e <;> rw [e]
    · exact lossOfPowerAfter_rail telling_id (begun.through (telling.tells _) (by decide))
    · exact lossOfPowerAfter_rail telling begun
  | false =>
    obtain ⟨-, -, rba⟩ := endAttemptAfter_records (o := o) hf hu
    have bands := (endAttemptAfter_changes o hf.tells s).same .bands (by decide)
    simp only [Part.Same, Prod.mk.injEq] at bands
    obtain ⟨supply, -, thermal, -⟩ := bands
    rwa [Railed, rba, supply, thermal]

theorem endAttempt_rail (o : DetachOutcome) : KeepsRail (endAttempt o) := endAttemptAfter_rail telling_id o

theorem endStuck_rail (detail : Nat) : KeepsRail (endStuck detail) := endAttemptAfter_rail (telling_rise _ _) _

theorem latchOff_rail : KeepsRail latchOff := fun {_ s} h =>
  withdrawLatch_rail (s := { s with det := { s.det with lsol := false, timer := none } }) h

theorem toClosing_rail (why : ClosingReason) : KeepsRail (toClosing why) := fun {C s} h => by
  have entered : Railed C (closingEntered why s) := latchOff_rail h
  have reported : Railed C (closingReported why s) := entered.through (closingReported_frame why s) (by decide)
  rw [toClosing_eq]
  split
  · exact endAttempt_rail _ reported
  · exact reported

theorem toReleasing_rail : KeepsRail toReleasing := fun {C s} h => by
  have entered : Railed C (releasingEntered s) := h
  have filed : Railed C (releasingFiled s) :=
    fileLatch_rail (entered.through (releasingReported_frame s) (by decide))
  rw [toReleasing_eq]
  split
  · exact filed.through (openCheck_changes _) (by decide)
  · exact filed

theorem giveUpLatch_rail (o : DetachOutcome) : KeepsRail (giveUpLatch o) := fun h => endAttempt_rail o (withdrawLatch_rail h)

theorem takeIdent_rail (i : Identity) : KeepsRail (takeIdent i) := fun {C s} h => by
  have attaches : KeepsRail (toAttached i) := keepsRail_of_changes (toAttached_changes i) (by decide)
  have checks : KeepsRail (identityCheck i) := fun {C v} h => by
    unfold identityCheck
    split
    · exact attaches (h.through (setTable_changes _ v) (by decide))
    · split
      · exact attaches (h.through (createEntry_changes i v) (by decide))
      · exact bmReport_rail false (fun v => (offer_changes _ v).mono (by decide))
          (withdrawBase_rail (s := { v with bm := { v.bm with state := .refused, phase := none, bpwr := false } }) h)
  have filed : Railed C (identFiled i s) := fileBase_rail (drawClaim i) (s := { s with bm := s.bm.identified i }) h
  unfold takeIdent
  split
  · dsimp only
    split
    · exact checks filed
    · exact toPowering_rail _ filed
  · exact h

theorem queryExpired_rail : KeepsRail queryExpired := fun {_ s} h => by
  unfold queryExpired
  dsimp only
  split
  · exact h
  · exact bmReport_rail false (fun v => (rise_changes _ _ v).mono (by decide)) (withdrawBase_rail (s := { s with bm := _ }) h)
  · exact h

/-! ### Base-gone (R61, R73, R95) -/

theorem takeAfresh_rail : KeepsRail takeAfresh := keepsRail_of_changes takeAfresh_changes (by decide)

theorem dropped_rail : KeepsRail dropped := fun {_ s} h => withdrawBase_rail (s := toAbsent s) h

theorem attachAbandoned_rail : KeepsRail attachAbandoned := fun {C s} h => by
  have gone : ∀ v, Railed C v → Railed C (takeAfresh (bmReport false id (dropped v))) := fun v h =>
    takeAfresh_rail (bmReport_id_rail false (dropped_rail h))
  unfold attachAbandoned
  dsimp only
  split
  · exact gone (fall .baseIdFail s) h
  · exact gone s h

theorem baseLoss_rail : KeepsRail baseLoss := fun h =>
  takeAfresh_rail (bmReport_rail false (fun v => (lossActs_changes _ v).mono (by decide)) (dropped_rail h))

theorem baseDetach_rail : KeepsRail baseDetach := fun {C s} h => by
  have unfed : Railed C (unfed s) := latchOff_rail h
  have gone : Railed C (detachedBase s) := withdrawBase_rail unfed
  exact takeAfresh_rail (bmReport_rail false (fun v => (detachActs_changes _ v).mono (by decide)) gone)

theorem baseIsGone_rail : KeepsRail baseIsGone := fun h => by
  unfold baseIsGone
  split
  iterate 4 exact attachAbandoned_rail h
  iterate 2 exact baseLoss_rail h
  iterate 2 exact baseDetach_rail h
  iterate 2 exact h

/-! ### The detach sequence -/

theorem pressAttached_rail : KeepsRail pressAttached := fun {C s} h => by
  have begun : Railed C (standingBegun s) := h
  unfold pressAttached
  dsimp only
  split
  · exact h
  · split
    · exact h.through (askConsent_changes s) (by decide)
    · split
      · exact toReleasing_rail begun
      · exact begun.through (standingRefusal_changes _) (by decide)

theorem bmPress_rail : KeepsRail bmPress := fun h => by
  unfold bmPress
  split
  · exact pressAttached_rail h
  · exact endAttempt_rail _ h
  · unfold pressReleasing
    split
    · exact toClosing_rail _ h
    · exact giveUpLatch_rail _ h
  all_goals exact h

theorem buttonHeld_rail : KeepsRail buttonHeld := fun {C s} h => by
  have held : ∀ d, Railed C { s with det := d } := fun _ => h
  unfold buttonHeld
  dsimp only
  split
  · exact bmPress_rail ((held _).through (cause_changes _ _) (by decide))
  · exact held _

theorem consentExpired_rail : KeepsRail consentExpired := fun h => by
  unfold consentExpired
  split
  · exact endAttempt_rail _ h
  · exact toReleasing_rail h

theorem bmLid_rail (level : Level) : KeepsRail (bmLid level) := fun h => by
  unfold bmLid
  split
  · exact endAttempt_rail _ h
  · exact h

theorem lidReported_rail (level : Level) : KeepsRail (lidReported level) := fun h => by
  have pe : KeepsRail peForcing := keepsRail_of_changes peForcing_changes (by decide)
  have spu : KeepsRail (spuLid level) := keepsRail_of_changes (spuLid_changes level) (by decide)
  unfold lidReported
  split
  · exact KeepsRail.anyOrder pe spu (bmLid_rail level) h
  · split
    · exact eitherOrder_holds (spu (pe h)) (pe (spu h))
    · exact spu (pe h)

theorem magnetHeld_rail (m : Magnet) : KeepsRail (magnetHeld m) := fun {C s} h => by
  have debounced : ∀ f, Railed C { s with sfe := f } := fun _ => h
  unfold magnetHeld
  dsimp only
  split
  · exact lidReported_rail _ ((debounced _).through (breakBoth_changes _) (by decide))
  · exact lidReported_rail _ (debounced _)
  · exact debounced _

theorem lswChanged_rail (pos : LatchPos) : KeepsRail (lswChanged pos) := fun {C s} h => by
  have recorded : Railed C (lswRecorded pos s) := h
  unfold lswChanged
  dsimp only
  split
  · split
    · exact recorded.through (startWindow_changes _) (by decide)
    · exact recorded
  · split
    · exact endAttempt_rail _ recorded
    · exact recorded

theorem consentAllowed_rail (place : Nat) : KeepsRail (consentAllowed place) := fun h =>
  toReleasing_rail (answer_rail place _ h)

theorem serveDetachConsent_rail (place : Nat) (payload : List Byte) : KeepsRail (serveDetachConsent place payload) :=
  fun h => by
  unfold serveDetachConsent
  split
  · split
    · exact answer_rail _ _ h
    · split
      · split
        · exact consentAllowed_rail place h
        · exact endAttempt_rail _ (answer_rail _ _ h)
      · exact answer_rail _ _ h
  · exact answer_rail _ _ h

theorem serveRequestDetach_rail (place : Nat) : KeepsRail (serveRequestDetach place) := fun {C s} h => by
  have begun : Railed C (detachRequested s) := h
  unfold serveRequestDetach
  split
  · split
    · exact answer_rail _ _ h
    · exact toReleasing_rail (answer_rail _ _ begun)
  · exact consentAllowed_rail place h
  · exact answer_rail _ _ h

/-! ### A scan (R107, R115) -/

theorem noticeBase_rail : KeepsRail noticeBase := fun {C s} h => by
  have unpowered : ∀ b d, Railed C { s with bm := b, det := d } := fun _ _ => h
  unfold noticeBase
  split
  · exact h.through (powerIfGranted_changes s) (by decide)
  · split
    · exact h
    · exact toPowering_rail _ h
  iterate 2
    · split
      · exact h
      · exact lossOfPowerAfter_rail telling_id h
  iterate 2
    · split
      · exact h
      · exact unpowered _ _
  all_goals exact h

theorem noticeLatch_rail : KeepsRail noticeLatch := fun h => by
  unfold noticeLatch
  split
  · split
    · exact h.through (openCheck_changes _) (by decide)
    · split
      · exact toClosing_rail _ h
      · exact h
  · exact h

/-- BM's notice for the BASE claim, where its grant has changed (R115). -/
def baseNotice (old : Grants) (s : State) : State → State :=
  if (s.rba.base.isSome && decide (s.rba.grants.base ≠ old.base)) = true then noticeBase else id

/-- BM's notice for the LATCH claim, where its grant has changed (R115). -/
def latchNotice (old : Grants) (s : State) : State → State :=
  if (s.rba.latch.isSome && decide (s.rba.grants.latch ≠ old.latch)) = true then noticeLatch else id

/-- R115: the notices come in any order, which is BM's before PDC's where one is sent at most. -/
theorem noticeAll_cases (old : Grants) (s : State) :
    noticeAll old s = anyOrder (baseNotice old s) (latchNotice old s) noticePen s ∨
    noticeAll old s = noticePen (latchNotice old s (baseNotice old s s)) := by
  unfold noticeAll
  dsimp only
  split
  · exact .inl rfl
  · exact .inr rfl

theorem noticeAll_rail (old : Grants) : KeepsRail (noticeAll old) := fun {_ s} h => by
  have base : KeepsRail (baseNotice old s) := KeepsRail.when _ noticeBase_rail
  have latch : KeepsRail (latchNotice old s) := KeepsRail.when _ noticeLatch_rail
  rcases noticeAll_cases old s with e | e <;> rw [e]
  · exact KeepsRail.anyOrder base latch noticePen_rail h
  · exact noticePen_rail (latch (base h))

/-- R111, R114: the capacity of the bands, and the grants over it, whatever they were before. -/
theorem handCapacity_railed (s : State) : Railed C (handCapacity s) :=
  noticeAll_rail s.rba.grants
    (s := { s with rba := ({ s.rba with capacity := capacityOf s.sm.supply s.sm.thermal } : Rba).compute })
    ⟨rfl, fun _ => rfl⟩

theorem handOn_railed (old : Sm) (vsys : Nat) (temp : Int) (s : State) : Railed C (handOn old vsys temp s) :=
  (handCapacity_railed _).through (offerSupply_changes _) (by decide)

theorem handBands_rail (old : Sm) (vsys : Nat) (temp : Int) : KeepsRail (handBands old vsys temp) := fun h => by
  have reports : KeepsRail (reportBands old vsys temp) := keepsRail_of_changes (reportBands_changes old vsys temp) (by decide)
  unfold handBands
  split
  · exact reports h
  · exact KeepsRail.anyOrder pdcSupply_rail (keepsRail_of_changes spuSupply_changes (by decide)) reports h

theorem scanCompleted_rail (vsys : Nat) (temp : Int) (pen : Nat) : KeepsRail (scanCompleted vsys temp pen) :=
  fun {C s} h => by
  have read : ∀ v t c, Railed C (penReading c { s with sm := ({ s.sm with scanning := false } : Sm).record v t c }) :=
    fun _ _ c => penReading_rail c h
  unfold scanCompleted
  dsimp only
  split
  · rename_i same
    obtain ⟨supply, thermal⟩ := same
    refine ⟨(read _ _ _).1, fun hc => ((read _ _ _).2 hc).trans ?_⟩
    exact congrArg₂ capacityOf supply thermal
  · exact handOn_railed _ _ _ _

/-! ### Requests and the link -/

theorem serveSetPenCharging_rail (place : Nat) (payload : List Byte) : KeepsRail (serveSetPenCharging place payload) :=
  fun h => by
  unfold serveSetPenCharging
  split
  · exact answer_rail _ _ h
  · exact KeepsRail.raceLc (answer_rail _ _) (replacePen_rail _) h

theorem restoreOwners_rail : KeepsRail restoreOwners := fun h => by
  have tuning : KeepsRail (replaceTuning defaultTuning) := keepsRail_of_changes (replaceTuning_changes _) (by decide)
  have sleep : KeepsRail restoreSleep := keepsRail_of_changes restoreSleep_changes (by decide)
  unfold restoreOwners
  dsimp only
  split
  · exact KeepsRail.anyOrder tuning sleep (replacePen_rail _) h
  · exact replacePen_rail _ (sleep (tuning h))

theorem serveRestoreDefaults_rail (place : Nat) : KeepsRail (serveRestoreDefaults place) := fun h =>
  answer_rail _ _ (((restoreOwners_rail h).through (restorePolicies_changes _) (by decide)).through
    (requestCommit_changes _) (by decide))

theorem serveAcceptBase_rail (place : Nat) : KeepsRail (serveAcceptBase place) := fun h => by
  unfold serveAcceptBase
  split
  · exact toPowering_rail _ (answer_rail _ _ (h.through (createEntry_changes _ _) (by decide)))
  · exact answer_rail _ _ h

/-- Five requests reach the rail; an owner's service of any other leaves it. -/
theorem serve_rail (place : Nat) (kind : ReqKind) (payload : List Byte) : KeepsRail (serve place kind payload) :=
  fun h => by
  cases kind with
  | acceptBase => exact serveAcceptBase_rail _ h
  | requestDetach => exact serveRequestDetach_rail _ h
  | detachConsent => exact serveDetachConsent_rail _ _ h
  | setPenCharging => exact serveSetPenCharging_rail _ _ h
  | restoreDefaults => exact serveRestoreDefaults_rail _ h
  | identify => exact h.through (serveIdentify_changes _ _) (by decide)
  | subscribe => exact h.through (serveSubscribe_changes _ _ _) (by decide)
  | unsubscribe => exact h.through (serveUnsubscribe_changes _ _ _) (by decide)
  | resetPart => exact h.through (serveResetPart_changes _ _) (by decide)
  | getPosture => exact h.through (serveGetPosture_changes _ _) (by decide)
  | getVectors => exact h.through (serveGetVectors_changes _ _) (by decide)
  | setRotationLock => exact h.through (serveSetRotationLock_changes _ _ _) (by decide)
  | setTuning => exact h.through (serveSetTuning_changes _ _ _) (by decide)
  | calibrateHinge => exact h.through (serveCalibrateHinge_changes _ _ _) (by decide)
  | listBases => exact h.through (serveListBases_changes _ _) (by decide)
  | forgetBase => exact h.through (serveForgetBase_changes _ _ _) (by decide)
  | setBaseOffset => exact h.through (serveSetBaseOffset_changes _ _ _) (by decide)
  | setBasePolicy => exact h.through (serveSetBasePolicy_changes _ _ _) (by decide)
  | setDetachPolicy => exact h.through (serveSetDetachPolicy_changes _ _ _) (by decide)
  | getSupply => exact h.through (serveGetSupply_changes _ _) (by decide)
  | getPen => exact h.through (serveGetPen_changes _ _) (by decide)
  | hostState => exact h.through (serveHostState_changes _ _ _) (by decide)
  | getSleep => exact h.through (serveGetSleep_changes _ _) (by decide)
  | setSleepPolicy => exact h.through (serveSetSleepPolicy_changes _ _ _) (by decide)
  | setWakeCauses => exact h.through (serveSetWakeCauses_changes _ _ _) (by decide)
  | getConditions => exact h.through (serveGetConditions_changes _ _) (by decide)
  | getHistory => exact h.through (serveGetHistory_changes _ _ _) (by decide)
  | clearConditions => exact h.through (serveClearConditions_changes _ _ _) (by decide)
  | saveSettings => exact h.through (serveSaveSettings_changes _ _) (by decide)

theorem handWaiting_rail (n : Nat) : KeepsRail (handWaiting n) := by
  induction n with
  | zero => exact fun h => h
  | succ n ih =>
    intro C s h
    unfold handWaiting
    split
    · exact ih (serve_rail (s := { s with lc := _ }) _ _ _ h)
    · exact h

theorem goodFrame_rail (kind : Nat) (tag : Byte) (payload : List Byte) : KeepsRail (goodFrame kind tag payload) :=
  fun {C s} h => by
  have refused : ∀ item lc, Railed C (refuse item { s with lc := lc }) := fun item lc =>
    Railed.through (s := { s with lc := lc }) h (refuse_changes item _) (by decide)
  unfold goodFrame
  dsimp only
  split
  · exact refused _ _
  · split
    · exact refused _ _
    · split
      · exact refused _ _
      · unfold accept
        dsimp only
        split
        · exact serve_rail (s := { s with lc := _ }) _ _ _ h
        · exact h

theorem rxByte_rail (b : Byte) : KeepsRail (rxByte b) := fun h => by
  unfold rxByte
  split
  · exact h
  · exact h
  · exact h
  · split
    · unfold bodyFrame
      split
      · exact goodFrame_rail _ _ _ h
      · exact h.through (badFrame_changes _) (by decide)
    · exact h.through (badFrame_changes _) (by decide)

/-! ### Resets (R118, R119) -/

theorem holdReset_railed (kind : ResetKind) (s : State) : Railed C (holdReset kind s) := ⟨rfl, fun _ => rfl⟩

theorem endReset_railed (kind : ResetKind) (s : State) : Railed C (endReset kind s) := by
  have starts : ∀ corrupt, KeepsRail (startBlocks corrupt) := fun corrupt =>
    keepsRail_of_changes (startBlocks_changes corrupt) (by decide)
  exact starts _ ⟨rfl, fun _ => rfl⟩

theorem beginReset_railed (kind : ResetKind) (s : State) : Railed C (beginReset kind s) := by
  unfold beginReset
  split
  · exact holdReset_railed kind s
  · exact endReset_railed kind s

theorem softReset_railed (s : State) : Railed C (softReset s) := by
  unfold softReset
  split
  · exact holdReset_railed _ _
  · split
    · exact endReset_railed _ _
    · exact holdReset_railed _ _

theorem assertReset_rail : KeepsRail assertReset := fun h => by
  unfold assertReset
  split
  · exact h
  · exact holdReset_railed _ _
  · split <;> exact holdReset_railed _ _

theorem releaseReset_rail : KeepsRail releaseReset := fun h => by
  unfold releaseReset
  split
  · exact endReset_railed _ _
  · exact h

theorem frameSent_rail : KeepsRail frameSent := fun {C s} h => by
  have next : ∀ lc, Railed C (afterFrame { s with lc := lc }) := fun lc =>
    (handWaiting_rail 4 (s := { s with lc := lc }) h).through (kick_changes _) (by decide)
  unfold frameSent
  split
  · exact h
  · dsimp only
    split
    · exact softReset_railed _
    · exact next _
  · exact next _
  · exact next _

/-! ### Commands -/

theorem whileRunning_rail {f : State → State} (hf : KeepsRail f) : KeepsRail (whileRunning f) := fun h => by
  unfold whileRunning
  split
  · exact hf h
  · exact h
  · exact hf (endReset_railed _ _)

/-- A pin that changes in a reset is recorded only (R176). -/
theorem onInput_rail {record f : State → State} (hr : KeepsRail record) (hf : KeepsRail f) :
    KeepsRail (onInput record f) := fun {C s} h => by
  rcases onInput_cases record f s with ⟨-, e⟩ | ⟨k, -, -, e⟩ | ⟨k, -, -, e | e⟩ <;> rw [e]
  · exact hf h
  · exact hr h
  · exact hr (s := s.nextChoice) h
  · exact hf (endReset_railed _ _)

theorem onExpiry_rail {f : State → State} (timer : Timer) (hf : KeepsRail f) : KeepsRail (onExpiry timer f) := fun h => by
  unfold onExpiry
  split
  · exact h
  · exact hf h

theorem onEnd_rail {f : State → State} (inFlight : Bool) (hf : KeepsRail f) : KeepsRail (onEnd inFlight f) := fun h => by
  unfold onEnd
  split
  · exact hf h
  · exact h

theorem exec_rail (c : Instr) (h : Railed C s) : ∃ t, exec c s = .next t ∧ Railed C t := by
  have run : ∀ {f}, KeepsRail f → Railed C (whileRunning f s) := fun hf => whileRunning_rail hf h
  have leaves : ∀ {m : List Part} {f : State → State}, (∀ v, Changes m v (f v)) →
      (∀ p ∈ .bands :: rbaParts, p ∉ m) → KeepsRail f := keepsRail_of_changes
  have expiry : ∀ {f} (timer : State → Timer), KeepsRail f → Railed C (whileRunning (fun u => onExpiry (timer u) f u) s) :=
    fun timer hf => run fun hu => onExpiry_rail (timer _) hf hu
  have ends : ∀ {f} (inFlight : State → Bool), KeepsRail f → Railed C (whileRunning (fun u => onEnd (inFlight u) f u) s) :=
    fun inFlight hf => run fun hu => onEnd_rail (inFlight _) hf hu
  have pin : ∀ {record f : State → State}, (∀ {C u}, Railed C u → Railed C (record u)) → KeepsRail f →
      Railed C (onInput record f s) := fun hr hf => onInput_rail hr hf h
  have request : ∀ kind tag payload, Railed C (whileRunning (request kind tag payload) s) :=
    fun _ _ _ => run (goodFrame_rail _ _ _)
  cases c with
  | powerOn => exact ⟨_, rfl, beginReset_railed _ _⟩
  | brownout => exact ⟨_, rfl, beginReset_railed _ _⟩
  | nrstAsserted => exact ⟨_, rfl, assertReset_rail h⟩
  | nrstReleased => exact ⟨_, rfl, releaseReset_rail h⟩
  | displayPeriodExpiry => exact ⟨_, rfl, expiry _ (leaves readDue_changes (by decide))⟩
  | displayReadSample x y z => exact ⟨_, rfl, ends _ (leaves (readSampled_changes _) (by decide))⟩
  | displayReadFailure cause => exact ⟨_, rfl, ends _ (leaves (readFailed_changes _) (by decide))⟩
  | displayReadTimeout =>
    exact ⟨_, rfl, run fun hu => onEnd_rail _ (onExpiry_rail _ (leaves (readFailed_changes 3) (by decide))) hu⟩
  | magnetLevelChange magnet level =>
    exact ⟨_, rfl, pin (fun hu => hu) (leaves (magnetChanged_changes _ _) (by decide))⟩
  | hallDebounceExpiry magnet => exact ⟨_, rfl, expiry _ (magnetHeld_rail _)⟩
  | bpresChange level => exact ⟨_, rfl, pin (fun hu => hu) (leaves (bpresChanged_changes _) (by decide))⟩
  | baseSettleTimerExpiry => exact ⟨_, rfl, expiry _ (toPowering_rail 120)⟩
  | baseGone => exact ⟨_, rfl, expiry _ fun {_ u} hu => baseIsGone_rail (s := { u with bm := _ }) hu⟩
  | queryTimerExpiry => exact ⟨_, rfl, expiry _ queryExpired_rail⟩
  | cyclingTimerExpiry => exact ⟨_, rfl, expiry _ (leaves cyclingExpired_changes (by decide))⟩
  | ident serial model draw revision => exact ⟨_, rfl, run (takeIdent_rail _)⟩
  | baseSample x y z => exact ⟨_, rfl, run (leaves (baseSampleArrived_changes _) (by decide))⟩
  | quiesced => exact ⟨_, rfl, run (leaves streamPaused_changes (by decide))⟩
  | quiesceTimerExpiry => exact ⟨_, rfl, expiry _ (leaves streamPaused_changes (by decide))⟩
  | baseLinkRecordDiscard => exact ⟨_, rfl, h⟩
  | dbtnChange level => exact ⟨_, rfl, pin (fun hu => hu) (leaves (dbtnChanged_changes _) (by decide))⟩
  | buttonHoldExpiry => exact ⟨_, rfl, expiry _ buttonHeld_rail⟩
  | consentTimerExpiry => exact ⟨_, rfl, expiry _ consentExpired_rail⟩
  | grantWaitExpiry => exact ⟨_, rfl, expiry _ (giveUpLatch_rail _)⟩
  | lswChange pos => exact ⟨_, rfl, pin (fun hu => hu) (lswChanged_rail _)⟩
  | openCheckExpiry => exact ⟨_, rfl, expiry _ fun hu => endStuck_rail 1 (latchOff_rail hu)⟩
  | releaseWindowExpiry => exact ⟨_, rfl, expiry _ (toClosing_rail _)⟩
  | closeCheckExpiry => exact ⟨_, rfl, expiry _ (endStuck_rail 2)⟩
  | blinkTimerExpiry => exact ⟨_, rfl, expiry _ (leaves blinkEnded_changes (by decide))⟩
  | scanPeriodExpiry => exact ⟨_, rfl, expiry _ (leaves scanDue_changes (by decide))⟩
  | scanCompletion vsys temp pen => exact ⟨_, rfl, ends _ (scanCompleted_rail _ _ _)⟩
  | pdetChange level => exact ⟨_, rfl, pin (fun hu => hu) (leaves (pdetChanged_changes _) (by decide))⟩
  | penSettleTimerExpiry => exact ⟨_, rfl, expiry _ (leaves penSettled_changes (by decide))⟩
  | penRemoval => exact ⟨_, rfl, expiry _ penRemoved_rail⟩
  | pollTimerExpiry => exact ⟨_, rfl, expiry _ (leaves startPoll_changes (by decide))⟩
  | responseTimerExpiry => exact ⟨_, rfl, expiry _ pollUnanswered_rail⟩
  | penStatus intact status => exact ⟨_, rfl, run (penStatusArrived_rail _ _)⟩
  | prechargeTimerExpiry => exact ⟨_, rfl, run prechargeExpired_rail⟩
  | safetyTimerExpiry => exact ⟨_, rfl, run safetyExpired_rail⟩
  | triggerTimerExpiry trigger => exact ⟨_, rfl, expiry _ (leaves (mature_changes _) (by decide))⟩
  | lidConfirmTimerExpiry => exact ⟨_, rfl, expiry _ (leaves lidConfirmed_changes (by decide))⟩
  | wakeTimerExpiry => exact ⟨_, rfl, expiry _ (leaves wakeExpired_changes (by decide))⟩
  | gapTimerExpiry => exact ⟨_, rfl, expiry _ (leaves nextAttempt_changes (by decide))⟩
  | uptimeTick => exact ⟨_, rfl, expiry (fun u => some u.nextSecond) (leaves tickUptime_changes (by decide))⟩
  | lengthByteAbandon byte => exact ⟨_, rfl, run (leaves (lengthAbandon_changes _) (by decide))⟩
  | rxGapTimeout => exact ⟨_, rfl, expiry _ (leaves gapExpired_changes (by decide))⟩
  | frameReject => exact ⟨_, rfl, run (leaves badFrame_changes (by decide))⟩
  | unknownKindFrame kind tag payload => exact ⟨_, rfl, run (goodFrame_rail _ _ _)⟩
  | txFrameDone => exact ⟨_, rfl, run frameSent_rail⟩
  | commitWriteDone faulty => exact ⟨_, rfl, run (leaves (writeDone_changes _) (by decide))⟩
  | commitVerifyDone => exact ⟨_, rfl, run (leaves verifyDone_changes (by decide))⟩
  | rxdByte byte => exact ⟨_, rfl, run (rxByte_rail _)⟩
  | _ => exact ⟨_, rfl, request _ _ _⟩

theorem step_rail (h : Railed C s) (e : step s = .next t) : Railed C t := by
  unfold step at e
  split at e
  · cases e
    exact whileRunning_rail (f := advance 1) (fun hu => hu) h
  · rename_i c rest _
    obtain ⟨u, hexec, hu⟩ := exec_rail (s := { s with pending := rest }) c h
    cases hexec.symm.trans e
    exact hu

/-- Settles O45: the table's formula by R114's steps, and the table and the capacity by `step_rail`. -/
theorem grantsFollowTheRail : Obligations.GrantsFollowTheRail := by
  refine ⟨⟨rfl, rfl, rfl, rfl, rfl, rfl⟩, fun capacity base latch pen => ?_, fun s t table capacity e => ?_⟩
  · have give : ∀ left c, grantOf left c =
        match c with
        | none => 0
        | some c => if c.minimum ≤ min c.requested left then min c.requested left else 0 := fun _ c => by
      cases c <;> rfl
    exact ⟨give _ _, give _ _, give _ _, grantTable_le _ _ _ _, fun _ => ⟨rfl, rfl⟩, fun _ _ => rfl⟩
  · have railed := step_rail ((railed_iff s).mpr ⟨table, capacity⟩) e
    obtain ⟨graded, rated⟩ := (railed_iff t).mp railed
    exact ⟨graded, rated, railed.law⟩

end Sys2Proof.Machine

/-!
What the blocks leave alone at a scan (R107, R115).

A scan reaches PDC, SPU, CM and BM, and each of them choosing a mode or changing its state reaches the others again. Four
relations say what passes through all of that, each adding to the one before: how the advice to the host can move
(`Advises`), that SPU evaluates LID and FACE_DOWN only (`Heeds`), that the live flags of the bands stay (`Carried`), and
that PDC does no more than take a notice (`Noticed`).
-/
namespace Sys2Proof.Machine

open Sys2Proof.Claims

variable {s t u : State} {m : List Part} {tr : Trigger} {first : State → State}

/-! ### Flags in a set -/

theorem bitHas_bitAdd_ne {n i j : Nat} (x : BitVec n) (h : i ≠ j) : bitHas (bitAdd x j) i = bitHas x i := by
  simp [bitHas, bitAdd, BitVec.getLsbD_twoPow, Ne.symm h]

theorem bitHas_bitDrop_ne {n i j : Nat} (x : BitVec n) (h : i ≠ j) : bitHas (bitDrop x j) i = bitHas x i := by
  by_cases hi : i < n
  · simpa [bitHas, bitDrop, hi] using fun _ => h
  · simp [bitHas, BitVec.getLsbD_of_ge _ _ (Nat.le_of_not_lt hi)]

theorem ne_zero_of_bitHas {n i : Nat} {x : BitVec n} (h : bitHas x i = true) : x ≠ 0 := by
  rintro rfl
  simp [bitHas] at h

/-! ### The advice to the host (R149, R150) -/

/-- SPU is ADVISED, with a reason in the advised set. -/
def Advising (s : State) : Prop := s.spu.state = .advised ∧ s.spu.advised ≠ 0

/-- `t` follows `s` by messages and evaluations of triggers: a host that is awake stays so, and advice that ends is
withdrawn. -/
structure Advises (s t : State) : Prop where
  told : Told s.lc t.lc
  host : s.spu.state = .awake ∨ s.spu.state = .advised → t.spu.state = .awake ∨ t.spu.state = .advised
  begins : s.spu.state = .awake → t.spu.state = .awake ∨ Advising t
  ends : Advising s → Advising t ∨ t.spu.state = .awake ∧ (Taking .sleep s.lc → Waits .adviceWithdrawn t.lc)

theorem Advises.trans (h : Advises s t) (g : Advises t u) : Advises s u where
  told := h.told.trans g.told
  host := g.host ∘ h.host
  begins hs := by
    rcases h.begins hs with ht | ht
    · exact g.begins ht
    · exact (g.ends ht).elim .inr fun hu => .inl hu.1
  ends hs := by
    rcases h.ends hs with ht | ⟨ht, waits⟩
    · exact (g.ends ht).imp id fun ⟨hu, waits⟩ => ⟨hu, fun k => waits (h.told.taking k)⟩
    · exact (g.begins ht).elim (fun hu => .inr ⟨hu, fun k => g.told.waits rfl (waits k)⟩) .inl

/-- SPU's state stands, and so does the advised set, or it keeps a reason. -/
theorem Advises.of_state (told : Told s.lc t.lc) (state : t.spu.state = s.spu.state)
    (reasons : t.spu.advised = s.spu.advised ∨ t.spu.advised ≠ 0) : Advises s t where
  told := told
  host := by rw [state]; exact id
  begins hs := .inl (state.trans hs)
  ends hs := .inl ⟨state.trans hs.1, reasons.elim (fun e => e ▸ hs.2) id⟩

/-- SPU is ADVISED afterwards, with a reason. -/
theorem Advises.of_advising (told : Told s.lc t.lc) (h : Advising t) : Advises s t where
  told := told
  host _ := .inr h.1
  begins _ := .inr h
  ends _ := .inl h

/-- `t` follows `s` while SPU evaluates no trigger but LID and FACE_DOWN: SUPPLY's record and reason stand, and so does the
advice that rests on it. -/
structure Heeds (s t : State) : Prop extends Advises s t where
  record : t.spu.supply = s.spu.supply
  reason : bitHas t.spu.advised Trigger.supply.idx = bitHas s.spu.advised Trigger.supply.idx
  stands : s.spu.state = .advised → bitHas s.spu.advised Trigger.supply.idx = true → t.spu.state = .advised

theorem Heeds.trans (h : Heeds s t) (g : Heeds t u) : Heeds s u :=
  ⟨h.toAdvises.trans g.toAdvises, g.record.trans h.record, g.reason.trans h.reason,
    fun hs hr => g.stands (h.stands hs hr) (h.reason.trans hr)⟩

theorem Heeds.of_changes (c : Changes m s t) (hm : ∀ p ∈ [Part.spuState, .triggers], p ∉ m) (told : Told s.lc t.lc) :
    Heeds s t := by
  have state : t.spu.state = s.spu.state := c.same .spuState (hm _ (by decide))
  have triggers := c.same .triggers (hm _ (by decide))
  simp only [Part.Same, Prod.mk.injEq] at triggers
  obtain ⟨-, -, record, reasons⟩ := triggers
  exact ⟨.of_state told state (.inl reasons), record, by rw [reasons], fun hs _ => state.trans hs⟩

/-- `t` follows `s` while SM reports nothing to CM: the live flags of SUPPLY_LOW, SUPPLY_CRITICAL and THERMAL_WARM, which
are those of index 8 to 10, stand too. -/
structure Carried (s t : State) : Prop extends Heeds s t where
  live : ∀ i, 8 ≤ i → i ≤ 10 → bitHas t.cm.live i = bitHas s.cm.live i

theorem Carried.trans (h : Carried s t) (g : Carried t u) : Carried s u :=
  ⟨h.toHeeds.trans g.toHeeds, fun i lo hi => (g.live i lo hi).trans (h.live i lo hi)⟩

theorem Heeds.carried (h : Heeds s t) (c : Changes m s t) (hm : .live ∉ m) : Carried s t :=
  ⟨h, fun i _ _ => congrArg (bitHas · i) (c.same .live hm)⟩

theorem Carried.of_changes (c : Changes m s t) (hm : ∀ p ∈ [Part.spuState, .triggers, .live], p ∉ m)
    (told : Told s.lc t.lc) : Carried s t :=
  (Heeds.of_changes c (fun p hp => hm p (by simp at hp; rcases hp with rfl | rfl <;> simp)) told).carried c
    (hm _ (by decide))

/-- A change in which nothing is sent. -/
theorem Carried.silent (c : Changes m s t) (hm : ∀ p ∈ [Part.spuState, .triggers, .live] ++ lcParts, p ∉ m) :
    Carried s t :=
  .of_changes c (fun p hp => hm p (List.mem_append_left _ hp)) (.of_changes c fun p hp => hm p (List.mem_append_right _ hp))

theorem Carried.refl (s : State) : Carried s s := .silent (.refl [] s) (by decide)

theorem nextChoice_carried (s : State) : Carried s s.nextChoice := .silent (nextChoice_changes s) (by decide)

theorem offer_carried (e : Event) (s : State) : Carried s (offer e s) :=
  .of_changes (offer_changes e s) (by decide) (offer_told e s)

theorem raceLc_carried {emit act : State → State} (he : ∀ v, Carried v (emit v)) (ha : ∀ v, Carried v (act v))
    (s : State) : Carried s (raceLc emit act s) :=
  raceLc_keeps (P := Carried s) (fun v h => h.trans (nextChoice_carried v)) (fun v h => h.trans (he v))
    (fun v h => h.trans (ha v)) (.refl s)

/-! ### Conditions of other causes -/

theorem rise_live_ne {c : Cond} {i : Nat} (detail : Nat) (h : i ≠ c.idx) :
    bitHas (rise c detail s).cm.live i = bitHas s.cm.live i := by
  unfold rise
  split
  · rfl
  · rw [offer_cm]
    simp only [Cm.risen]
    split
    · exact bitHas_bitAdd_ne _ h
    · rfl

theorem fall_live_ne {c : Cond} {i : Nat} (h : i ≠ c.idx) : bitHas (fall c s).cm.live i = bitHas s.cm.live i :=
  bitHas_bitDrop_ne _ h

theorem rise_heeds (c : Cond) (detail : Nat) (s : State) : Heeds s (rise c detail s) :=
  .of_changes (rise_changes c detail s) (by decide) (rise_told c detail s)

theorem rise_carried {c : Cond} (h : c.idx < 8) (detail : Nat) (s : State) : Carried s (rise c detail s) :=
  ⟨rise_heeds c detail s, fun _ lo _ => rise_live_ne detail (by omega)⟩

theorem fall_heeds (c : Cond) (s : State) : Heeds s (fall c s) := .of_changes (fall_changes c s) (by decide) (.refl _)

/-! ### The triggers (R147 to R150) -/

theorem setTrigger_advised (tr : Trigger) (r : TriggerRec) (spu : Spu) : (setTrigger tr r spu).advised = spu.advised := by
  cases tr <;> rfl

theorem setTrigger_supply (h : tr ≠ .supply) (r : TriggerRec) (spu : Spu) : (setTrigger tr r spu).supply = spu.supply := by
  cases tr with
  | supply => exact absurd rfl h
  | _ => rfl

theorem trigger_idx_ne (h : tr ≠ .supply) : Trigger.supply.idx ≠ tr.idx := by
  cases tr with
  | supply => exact absurd rfl h
  | _ => decide

/-- SPU's record with a trigger replaced. -/
theorem Advises.setTrigger (r : TriggerRec) (s : State) : Advises s { s with spu := setTrigger tr r s.spu } :=
  .of_state (.refl _) (setTrigger_state _ _ _) (.inl (setTrigger_advised _ _ _))

theorem Heeds.setTrigger (h : tr ≠ .supply) (r : TriggerRec) (s : State) :
    Heeds s { s with spu := setTrigger tr r s.spu } := by
  refine ⟨.setTrigger r s, setTrigger_supply h _ _, ?_, fun hs _ => (setTrigger_state _ _ _).trans hs⟩
  rw [show (Machine.setTrigger tr r s.spu).advised = s.spu.advised from setTrigger_advised _ _ _]

theorem mature_told (tr : Trigger) (s : State) : Told s.lc (mature tr s).lc := by
  unfold mature
  dsimp only
  split
  · exact .after (offer_told _) rfl
  · exact .refl _

/-- R149: SPU's record when a trigger has matured. -/
theorem mature_spu (tr : Trigger) (s : State) :
    (mature tr s).spu =
      let matured := setTrigger tr { triggerRec tr s.spu with timer := none, matured := true } s.spu
      if s.spu.state = .awake ∨ s.spu.state = .advised then
        { matured with advised := bitAdd s.spu.advised tr.idx, state := .advised }
      else matured := by
  unfold mature
  simp only [setTrigger_state, setTrigger_advised]
  split
  · rw [offer_spu]
  · rfl

theorem trigger_idx_lt (tr : Trigger) : tr.idx < 3 := by cases tr <;> decide

theorem mature_advises (tr : Trigger) (s : State) : Advises s (mature tr s) := by
  have spu := mature_spu tr s
  dsimp only at spu
  by_cases awake : s.spu.state = .awake ∨ s.spu.state = .advised
  · rw [if_pos awake] at spu
    refine .of_advising (mature_told tr s) ⟨by rw [spu], ?_⟩
    rw [spu]
    exact ne_zero_of_bitHas (bitHas_bitAdd_self _ (trigger_idx_lt tr))
  · rw [if_neg awake] at spu
    exact .of_state (mature_told tr s) (by rw [spu, setTrigger_state]) (.inl (by rw [spu, setTrigger_advised]))

theorem mature_heeds (h : tr ≠ .supply) (s : State) : Heeds s (mature tr s) := by
  have spu := mature_spu tr s
  dsimp only at spu
  refine ⟨mature_advises tr s, ?_, ?_, fun hs _ => ?_⟩ <;> rw [spu]
  · split <;> exact setTrigger_supply h _ _
  · split
    · exact bitHas_bitAdd_ne _ (trigger_idx_ne h)
    · rw [setTrigger_advised]
  · rw [if_pos (.inr hs)]

theorem triggerBegins_advises (tr : Trigger) (s : State) : Advises s (triggerBegins tr s) := by
  unfold triggerBegins
  dsimp only
  split
  · exact (Advises.setTrigger _ s).trans (mature_advises _ _)
  · exact .setTrigger _ s

theorem triggerBegins_heeds (h : tr ≠ .supply) (s : State) : Heeds s (triggerBegins tr s) := by
  unfold triggerBegins
  dsimp only
  split
  · exact (Heeds.setTrigger h _ s).trans (mature_heeds h _)
  · exact .setTrigger h _ s

/-- R150: a reason that is not the last leaves the advised set, and SPU's state stands. -/
theorem triggerEnds_advises (tr : Trigger) (s : State) : Advises s (triggerEnds tr s) := by
  unfold triggerEnds
  simp only [setTrigger_advised, setTrigger_state]
  split
  · split
    · rename_i last
      let withdrawn : State :=
        { s with
          spu := { setTrigger tr TriggerRec.idle s.spu with
            advised := bitDrop s.spu.advised tr.idx
            state := if s.spu.state = .advised then .awake else s.spu.state } }
      have state : (offer .adviceWithdrawn withdrawn).spu.state =
          if s.spu.state = .advised then .awake else s.spu.state := by rw [offer_spu]
      refine ⟨.after (offer_told _) rfl, fun hs => .inl (state.trans ?_), fun hs => .inl (state.trans ?_),
        fun hs => .inr ⟨state.trans (if_pos hs.1), fun k => offer_waits rfl k⟩⟩
      · rcases hs with hs | hs <;> simp [hs]
      · simp [hs]
    · rename_i more
      exact .of_state (.refl _) rfl (.inr more)
  · exact .setTrigger _ s

theorem triggerEnds_heeds (h : tr ≠ .supply) (s : State) : Heeds s (triggerEnds tr s) := by
  have reason := bitHas_bitDrop_ne s.spu.advised (trigger_idx_ne h)
  refine ⟨triggerEnds_advises tr s, ?_, ?_, ?_⟩ <;> unfold triggerEnds <;>
    simp only [setTrigger_advised, setTrigger_state]
  · split
    · split
      · rw [offer_spu]
        exact setTrigger_supply h _ _
      · exact setTrigger_supply h _ _
    · exact setTrigger_supply h _ _
  · split
    · split
      · rw [offer_spu]
        exact reason
      · exact reason
    · rw [setTrigger_advised]
  · intro hs hr
    split
    · split
      · rename_i last
        rw [hr] at reason
        exact absurd last (ne_zero_of_bitHas reason)
      · exact hs
    · exact (setTrigger_state _ _ _).trans hs

theorem evalTrigger_advises (tr : Trigger) (s : State) : Advises s (evalTrigger tr s) := by
  unfold evalTrigger
  split
  · exact (Carried.refl s).toAdvises
  · split
    · exact triggerBegins_advises tr s
    · exact triggerEnds_advises tr s

theorem evalTrigger_carried (h : tr ≠ .supply) (s : State) : Carried s (evalTrigger tr s) := by
  refine Heeds.carried ?_ (evalTrigger_changes tr s) (by decide)
  unfold evalTrigger
  split
  · exact (Carried.refl s).toHeeds
  · split
    · exact triggerBegins_heeds h s
    · exact triggerEnds_heeds h s

/-! ### PE's record and the part mode -/

theorem spuView_carried (s : State) : Carried s (spuView s) := by
  let viewed : State := { s with spu := { s.spu with view := viewOf s.pe } }
  have looks : Carried s viewed := by
    refine .silent (m := [.view]) ⟨fun p hp => ?_⟩ (by decide)
    cases p <;> first | rfl | exact absurd (by decide) hp
  have lid := fun v => evalTrigger_carried (tr := .lid) (by decide) v
  have face := fun v => evalTrigger_carried (tr := .faceDown) (by decide) v
  unfold spuView
  dsimp only
  split
  · have chosen := looks.trans (nextChoice_carried viewed)
    exact eitherOrder_holds ((chosen.trans (lid _)).trans (face _)) ((chosen.trans (face _)).trans (lid _))
  · exact (looks.trans (lid _)).trans (face _)

theorem emitPosture_carried (old p : Pe) (s : State) : Carried s (emitPosture old p s) :=
  .of_changes (emitPosture_changes old p s) (by decide) (emitPosture_told old p s)

theorem peStep_carried {report : State → State} (hr : ∀ v, Carried v (report v)) (p : Pe) (s : State) :
    Carried s (peStep report p s) := by
  have settles : Carried s { s with pe := settled s.pe p } :=
    ⟨⟨.of_state (.refl _) rfl (.inl rfl), rfl, rfl, fun hs _ => hs⟩, fun _ _ _ => rfl⟩
  unfold peStep
  dsimp only
  split
  · exact settles.trans (raceLc_carried (emitPosture_carried _ _) hr _)
  · exact settles.trans (hr _)

/-- Records of other blocks than SPU, CM and LC are replaced. -/
theorem Carried.replaced (hspu : t.spu = s.spu) (hcm : t.cm = s.cm) (hlc : t.lc = s.lc) : Carried s t :=
  ⟨⟨.of_state (.of_eq hlc) (by rw [hspu]) (.inl (by rw [hspu])), by rw [hspu], by rw [hspu], fun hs _ => hspu ▸ hs⟩,
    fun _ _ _ => by rw [hcm]⟩

/-- The same before a further change. -/
theorem Carried.after (h : Carried u t) (hspu : u.spu = s.spu) (hcm : u.cm = s.cm) (hlc : u.lc = s.lc) : Carried s t :=
  (Carried.replaced hspu hcm hlc).trans h

theorem breakBase_carried (s : State) : Carried s (breakBase s) :=
  .after (peStep_carried spuView_carried _ _) rfl rfl rfl

theorem breakBoth_carried (s : State) : Carried s (breakBoth s) :=
  .after (peStep_carried spuView_carried _ _) rfl rfl rfl

theorem sfeView_carried (s : State) : Carried s (sfeView s) := by
  unfold sfeView
  dsimp only
  split
  · exact .after ⟨fall_heeds .baseSamplesLate _, fun i lo _ => fall_live_ne (by change i ≠ 1; omega)⟩ rfl rfl rfl
  · exact .replaced rfl rfl rfl

theorem compareStream_carried (s : State) : Carried s (compareStream s) := by
  have sends : ∀ r b, Carried s (sendBase r { s with bm := b }) := fun _ _ => .replaced rfl rfl rfl
  unfold compareStream resumeStream quiesceStream
  split
  · split
    · exact .refl s
    · exact ((sends _ _).trans (sfeView_carried _)).trans (breakBase_carried _)
  · split
    · exact (sends _ _).trans (sfeView_carried _)
    · exact .refl s

theorem sfeMode_carried (old : PartMode) (s : State) : Carried s (sfeMode old s) := by
  unfold sfeMode
  split
  · exact .replaced rfl rfl rfl
  · split
    · exact (breakBoth_carried s).trans (.replaced rfl rfl rfl)
    · exact .replaced rfl rfl rfl

theorem bmMode_carried (old : PartMode) (s : State) : Carried s (bmMode old s) := by
  unfold bmMode
  split
  · exact .replaced rfl rfl rfl
  · exact compareStream_carried s

theorem smMode_carried (s : State) : Carried s (smMode s) := .replaced rfl rfl rfl

theorem peMode_carried (s : State) : Carried s (peMode s) := by
  unfold peMode
  split
  · exact peStep_carried spuView_carried _ s
  · exact .refl s

theorem chooseMode_carried (s : State) : Carried s (chooseMode s) := by
  have chosen : ∀ mode, Carried s { s with spu := { s.spu with mode := mode } } := fun mode =>
    .silent (m := [.mode]) ⟨fun p hp => by cases p <;> first | rfl | exact absurd (by decide) hp⟩ (by decide)
  unfold chooseMode changeMode
  split
  · exact .refl s
  · exact ((((chosen _).trans (sfeMode_carried _ _)).trans (smMode_carried _)).trans (bmMode_carried _ _)).trans
      (peMode_carried _)

/-- R154, R156: a cause moves SPU's state in ASLEEP alone. -/
theorem cause_carried (c : WakeCause) (s : State) : Carried s (cause c s) := by
  have noted : ∀ pending causes, Carried s { s with spu := { s.spu with pending := pending, causes := causes } } :=
    fun _ _ => .silent (m := [.causes]) ⟨fun p hp => by cases p <;> first | rfl | exact absurd (by decide) hp⟩ (by decide)
  have started : ∀ causes, s.spu.state = .asleep →
      Carried s { s with spu := s.spu.episode s.now s.settings.sleep causes } := fun _ asleep =>
    ⟨⟨⟨.refl _, fun hs => by simp [asleep] at hs, fun hs => by simp [asleep] at hs,
      fun hs => by simp [asleep, Advising] at hs⟩, rfl, rfl, fun hs => by simp [asleep] at hs⟩, fun _ _ _ => rfl⟩
  unfold cause takeCause
  split
  · cases state : s.spu.state with
    | suspending => exact noted _ _
    | waking => exact noted _ _
    | asleep => exact (started _ state).trans (chooseMode_carried _)
    | _ => exact .refl s
  · exact .refl s

theorem spuPosture_carried (changed : Bool) (s : State) : Carried s (spuPosture changed s) := by
  unfold spuPosture
  split
  · exact (spuView_carried s).trans (cause_carried _ _)
  · exact spuView_carried s

theorem peBm_carried (s : State) : Carried s (peBm s) := by
  have forces : ∀ v, Carried v (peForcing v) := fun v => by
    unfold peForcing
    split
    · exact .refl v
    · exact peStep_carried (spuPosture_carried _) _ v
  exact .after (forces _) rfl rfl rfl

/-! ### PDC (R134, R135) -/

theorem pdcStep_carried {f : State → State} (hf : Carried s (f s)) : Carried s (pdcStep none f s) := by
  have emits : ∀ (news : Bool) e v, Carried v ((if news = true then offer e else id) v) := fun news e v => by
    cases news with
    | false => exact .refl v
    | true => exact offer_carried e v
  unfold pdcStep
  dsimp only
  split
  · exact hf.trans (emits _ _ _)
  · exact hf.trans (raceLc_carried (emits _ _) chooseMode_carried _)

theorem penCond_idx (reason : PenFault) : (penCond reason).idx < 8 := by cases reason <;> decide

theorem enterFault_carried (reason : PenFault) (s : State) : Carried s (enterFault reason s) := by
  have stopped : Carried s (stopCharging s) := .silent (stopCharging_changes s) (by decide)
  exact stopped.trans (.after (rise_carried (penCond_idx reason) _ _) rfl rfl rfl)

theorem phaseChoice_carried (s : State) : Carried s (phaseChoice s) := by
  unfold phaseChoice
  split
  · exact .refl s
  · split
    · exact enterFault_carried _ s
    · split
      · exact .silent (reachFull_changes s) (by decide)
      · split
        · exact .silent (suspendPen_changes s) (by decide)
        · exact (Carried.silent (openCycle_changes s) (by decide)).trans (.silent (enterPhase_changes _ _) (by decide))

theorem changeReasons_carried (new : BitVec 3) (s : State) : Carried s (changeReasons new s) := by
  have changed : Carried s { s with pdc := { s.pdc with reasons := new } } := .replaced rfl rfl rfl
  unfold changeReasons
  dsimp only
  split
  · exact changed.trans (.silent (suspendPen_changes _) (by decide))
  · split
    · exact changed.trans (phaseChoice_carried _)
    · exact changed

theorem pdcSupply_carried (s : State) : Carried s (pdcSupply s) := pdcStep_carried (changeReasons_carried _ s)

theorem penReading_carried (current : Nat) (s : State) : Carried s (penReading current s) := by
  unfold penReading
  split
  · split
    · split
      · exact .replaced rfl rfl rfl
      · split
        · exact pdcStep_carried (.silent (reachFull_changes s) (by decide))
        · exact .refl s
    · exact .replaced rfl rfl rfl
  · exact .refl s

/-! ### Notices (R115) -/

/-- The parts that make up PDC's record. -/
def pdcParts : List Part := [.garage, .polls, .charging, .penLast]

theorem Changes.pdc_eq (c : Changes m s t) (hm : ∀ p ∈ pdcParts, p ∉ m) : t.pdc = s.pdc := by
  have same : ∀ p ∈ pdcParts, p.Same s t := fun p hp => c.same p (hm p hp)
  simp only [pdcParts, List.forall_mem_cons, Part.Same, Prod.mk.injEq] at same
  cases hs : s.pdc
  cases ht : t.pdc
  simp_all

/-- `t` follows `s` while PDC takes notices of its grant at most: its suspend reasons stand, and without a claim its whole
record. -/
structure Noticed (s t : State) : Prop extends Carried s t where
  reasons : t.pdc.reasons = s.pdc.reasons
  unclaimed : s.rba.pen = none → t.rba.pen = none ∧ t.pdc = s.pdc

theorem Noticed.trans (h : Noticed s t) (g : Noticed t u) : Noticed s u where
  toCarried := h.toCarried.trans g.toCarried
  reasons := g.reasons.trans h.reasons
  unclaimed hs := by
    obtain ⟨claim, record⟩ := h.unclaimed hs
    obtain ⟨claim', record'⟩ := g.unclaimed claim
    exact ⟨claim', record'.trans record⟩

theorem Carried.noticed (h : Carried s t) (hpdc : t.pdc = s.pdc) (hpen : t.rba.pen = s.rba.pen) : Noticed s t :=
  ⟨h, by rw [hpdc], fun none => ⟨hpen.trans none, hpdc⟩⟩

theorem Carried.noticed_of_changes (h : Carried s t) (c : Changes m s t) (hm : ∀ p ∈ .penClaim :: pdcParts, p ∉ m) :
    Noticed s t :=
  h.noticed (c.pdc_eq fun p hp => hm p (List.mem_cons_of_mem _ hp)) (c.same .penClaim (hm _ (by decide)))

/-- Records of other blocks than SPU, CM, LC and PDC are replaced, and not PDC's claim. -/
theorem Noticed.replaced (hspu : t.spu = s.spu) (hcm : t.cm = s.cm) (hlc : t.lc = s.lc) (hpdc : t.pdc = s.pdc)
    (hpen : t.rba.pen = s.rba.pen) : Noticed s t := (Carried.replaced hspu hcm hlc).noticed hpdc hpen

/-- The same before a further change. -/
theorem Noticed.after (h : Noticed u t) (hspu : u.spu = s.spu) (hcm : u.cm = s.cm) (hlc : u.lc = s.lc)
    (hpdc : u.pdc = s.pdc) (hpen : u.rba.pen = s.rba.pen) : Noticed s t :=
  (Noticed.replaced hspu hcm hlc hpdc hpen).trans h

theorem Noticed.refl (s : State) : Noticed s s := .replaced rfl rfl rfl rfl rfl

theorem nextChoice_noticed (s : State) : Noticed s s.nextChoice := .replaced rfl rfl rfl rfl rfl

theorem anyOrder_noticed {f g k : State → State} (hf : ∀ v, Noticed v (f v)) (hg : ∀ v, Noticed v (g v))
    (hk : ∀ v, Noticed v (k v)) (s : State) : Noticed s (anyOrder f g k s) :=
  anyOrder_keeps (P := Noticed s) (fun v h => h.trans (nextChoice_noticed v)) (fun v h => h.trans (hf v))
    (fun v h => h.trans (hg v)) (fun v h => h.trans (hk v)) (.refl s)

theorem raceLc_noticed {emit act : State → State} (he : ∀ v, Noticed v (emit v)) (ha : ∀ v, Noticed v (act v))
    (s : State) : Noticed s (raceLc emit act s) :=
  raceLc_keeps (P := Noticed s) (fun v h => h.trans (nextChoice_noticed v)) (fun v h => h.trans (he v))
    (fun v h => h.trans (ha v)) (.refl s)

theorem offer_noticed (e : Event) (s : State) : Noticed s (offer e s) :=
  (offer_carried e s).noticed_of_changes (offer_changes e s) (by decide)

/-- After PDC's own act its step tells of it, and a choice of mode may follow (R141, R159). -/
theorem pdcStep_frame (f : State → State) (s : State) : Changes wakeParts (f s) (pdcStep none f s) := by
  have emits : ∀ (news : Bool) e v, Changes wakeParts v ((if news = true then offer e else id) v) := fun news e v => by
    cases news with
    | false => exact .refl _ v
    | true => exact (offer_changes e v).mono (by decide)
  unfold pdcStep
  dsimp only
  split
  · exact emits _ _ _
  · exact raceLc_changes (by decide) (emits _ _) (fun v => (chooseMode_changes v).mono (by decide)) _

theorem takeNotice_reasons (grant : Nat) (s : State) : (takeNotice grant s).pdc.reasons = s.pdc.reasons := by
  unfold takeNotice
  dsimp only
  split
  iterate 3 split <;> rfl
  · split
    · rfl
    · split <;> rfl
  · rfl

theorem noticePen_noticed (s : State) : Noticed s (noticePen s) := by
  have carried : Carried s (noticePen s) := by
    unfold noticePen
    split
    · exact pdcStep_carried (.silent (takeNotice_changes _ s) (by decide))
    · exact .refl s
  refine ⟨carried, ?_, fun none => ⟨by rw [noticePen_rba]; exact none, ?_⟩⟩ <;> unfold noticePen
  · split
    · rw [(pdcStep_frame _ s).pdc_eq (by decide)]
      exact takeNotice_reasons _ s
    · rfl
  · rw [if_neg (by simp [none])]

theorem claims_noticed (r : Rba) (hpen : r.pen = s.rba.pen) : Noticed s (noticePen { s with rba := r }) :=
  .after (noticePen_noticed _) rfl rfl rfl rfl hpen

theorem fileBase_noticed (amount : Nat) (s : State) : Noticed s (fileBase amount s) := claims_noticed _ rfl

theorem withdrawLatch_noticed (s : State) : Noticed s (withdrawLatch s) := by
  unfold withdrawLatch
  split
  · exact .refl s
  · exact claims_noticed _ rfl

theorem compareStream_noticed (s : State) : Noticed s (compareStream s) :=
  (compareStream_carried s).noticed_of_changes (compareStream_changes s) (by decide)

/-- R62: a report of BM, with what BM's own acts at it do. -/
theorem bmReport_noticed {acts : State → State} (ha : ∀ v, Noticed v (acts v)) (s : State) :
    Noticed s (bmReport false acts s) := by
  have view := (sfeView_carried s).noticed_of_changes (sfeView_changes s) (by decide)
  have pe := fun v => (peBm_carried v).noticed_of_changes (peBm_changes v) (by decide)
  have spu : ∀ v, Noticed v (spuBm false v) := fun v =>
    (chooseMode_carried v).noticed_of_changes (chooseMode_changes v) (by decide)
  unfold bmReport
  dsimp only
  split
  · exact view.trans (ha _)
  · exact view.trans (anyOrder_noticed pe spu ha _)

theorem powerIfGranted_noticed (s : State) : Noticed s (powerIfGranted s) := by
  have asks : ∀ v, Noticed v (askIdentity v) := fun _ => .replaced rfl rfl rfl rfl rfl
  unfold powerIfGranted startIdentify
  split
  · exact .after (bmReport_noticed asks _) rfl rfl rfl rfl rfl
  · exact .refl s

theorem toPowering_noticed (amount : Nat) (s : State) : Noticed s (toPowering amount s) := by
  have reported : Noticed s (bmReport false id { s with bm := s.bm.powering }) :=
    .after (bmReport_noticed .refl _) rfl rfl rfl rfl rfl
  exact (reported.trans (fileBase_noticed amount _)).trans (powerIfGranted_noticed _)

theorem rise_noticed {c : Cond} (h : c.idx < 8) (detail : Nat) (s : State) : Noticed s (rise c detail s) :=
  (rise_carried h detail s).noticed_of_changes (rise_changes c detail s) (by decide)

theorem lossOfPowerAfter_noticed (hf : ∀ v, Noticed v (first v)) (s : State) : Noticed s (lossOfPowerAfter first s) := by
  have acts : ∀ v, Noticed v (outageActs first s.bm.active v) := fun v =>
    ((hf v).trans (rise_noticed (by decide) 2 _)).trans (offer_noticed _ _)
  have reported : Noticed s (bmReport false (outageActs first s.bm.active) (outage s)) :=
    .after (bmReport_noticed acts _) rfl rfl rfl rfl rfl
  rw [lossOfPowerAfter_eq]
  exact (reported.trans (fileBase_noticed _ _)).trans (powerIfGranted_noticed _)

theorem endAttempt_noticed (o : DetachOutcome) (s : State) : Noticed s (endAttempt o s) := by
  have tells : ∀ v, Noticed v (tellEnd id o s.bm.active v) := fun v => offer_noticed _ v
  have begun : Noticed s (attemptOver o s).nextChoice := .replaced rfl rfl rfl rfl rfl
  unfold endAttempt
  cases supply : s.det.unpowered with
  | true =>
    rcases endAttemptAfter_lost (o := o) id supply with e | e <;> rw [e]
    · exact (begun.trans (tells _)).trans (lossOfPowerAfter_noticed .refl _)
    · exact begun.trans (lossOfPowerAfter_noticed tells _)
  | false =>
    rw [endAttemptAfter_back id supply]
    exact .after (bmReport_noticed (raceLc_noticed tells compareStream_noticed) _) rfl rfl rfl rfl rfl

theorem toClosing_noticed (why : ClosingReason) (s : State) : Noticed s (toClosing why s) := by
  have off : Noticed s (latchOff s) := .after (withdrawLatch_noticed _) rfl rfl rfl rfl rfl
  have entered : Noticed s (closingEntered why s) := off.trans (.replaced rfl rfl rfl rfl rfl)
  have reported : Noticed s (closingReported why s) := entered.trans (bmReport_noticed compareStream_noticed _)
  rw [toClosing_eq]
  split
  · exact reported.trans (endAttempt_noticed _ _)
  · exact reported

theorem noticeBase_noticed (s : State) : Noticed s (noticeBase s) := by
  unfold noticeBase
  split
  · exact powerIfGranted_noticed s
  · split
    · exact .refl s
    · exact toPowering_noticed _ s
  iterate 2
    · split
      · exact .refl s
      · exact lossOfPowerAfter_noticed .refl s
  iterate 2
    · split
      · exact .refl s
      · exact .replaced rfl rfl rfl rfl rfl
  all_goals exact .refl s

theorem noticeLatch_noticed (s : State) : Noticed s (noticeLatch s) := by
  unfold noticeLatch
  split
  · split
    · exact (Carried.silent (openCheck_changes s) (by decide)).noticed_of_changes (openCheck_changes s) (by decide)
    · split
      · exact toClosing_noticed _ s
      · exact .refl s
  · exact .refl s

theorem noticeAll_noticed (old : Grants) (s : State) : Noticed s (noticeAll old s) := by
  have base : ∀ v, Noticed v (baseNotice old s v) := fun v => by
    unfold baseNotice
    split
    · exact noticeBase_noticed v
    · exact .refl v
  have latch : ∀ v, Noticed v (latchNotice old s v) := fun v => by
    unfold latchNotice
    split
    · exact noticeLatch_noticed v
    · exact .refl v
  rcases noticeAll_cases old s with e | e <;> rw [e]
  · exact anyOrder_noticed base latch noticePen_noticed s
  · exact ((base s).trans (latch _)).trans (noticePen_noticed _)

end Sys2Proof.Machine

/-!
What a change of the bands reaches (R107, R108, R133, R134, R147).

The three reports of steps 1 and 2 of R107, to PDC, to SPU and to CM, come in any order. For each of them: what it does
wherever it comes, and that the other two, and the notices after them, leave it so.
-/
namespace Sys2Proof.Machine

open Sys2Proof.Claims

variable {s t u : State} {m : List Part} {old : Sm} {vsys : Nat} {temp : Int}

/-- The bands stand. -/
def SameBands (s t : State) : Prop := t.sm.supply = s.sm.supply ∧ t.sm.thermal = s.sm.thermal

theorem SameBands.of_changes (c : Changes m s t) (hm : .bands ∉ m) : SameBands s t := by
  have bands := c.same .bands hm
  simp only [Part.Same, Prod.mk.injEq] at bands
  obtain ⟨supply, -, thermal, -⟩ := bands
  exact ⟨supply, thermal⟩

theorem SameBands.refl (s : State) : SameBands s s := ⟨rfl, rfl⟩

theorem SameBands.trans (h : SameBands s t) (g : SameBands t u) : SameBands s u :=
  ⟨g.1.trans h.1, g.2.trans h.2⟩

theorem nextChoice_sameBands (s : State) : SameBands s s.nextChoice := ⟨rfl, rfl⟩

theorem pdcSupply_sameBands (s : State) : SameBands s (pdcSupply s) := .of_changes (pdcSupply_changes s) (by decide)

theorem spuSupply_sameBands (s : State) : SameBands s (spuSupply s) := .of_changes (spuSupply_changes s) (by decide)

theorem reportBands_sameBands (old : Sm) (vsys : Nat) (temp : Int) (s : State) :
    SameBands s (reportBands old vsys temp s) := .of_changes (reportBands_changes old vsys temp s) (by decide)

/-- CRITICAL is entered or left. -/
def CriticalTurns (old : Sm) (s : State) : Prop := decide (old.supply = .critical) ≠ decide (s.sm.supply = .critical)

theorem handBands_turning (turns : CriticalTurns old s) :
    handBands old vsys temp s = anyOrder pdcSupply spuSupply (reportBands old vsys temp) s := if_neg turns

/-- The notices and SUPPLY_BAND are all that follow steps 1 and 2 of R107. -/
theorem handCapacity_noticed (s : State) : Noticed s (handCapacity s) :=
  .after (noticeAll_noticed s.rba.grants _) rfl rfl rfl rfl rfl

theorem handOn_noticed (old : Sm) (vsys : Nat) (temp : Int) (s : State) :
    Noticed (handBands old vsys temp s) (handOn old vsys temp s) :=
  (handCapacity_noticed _).trans (offer_noticed _ _)

/-! ### The conditions (R108) -/

theorem rise_live_self {c : Cond} (state : c.isState = true) (detail : Nat) (s : State) :
    bitHas (rise c detail s).cm.live c.idx = true := by
  unfold rise
  split
  · rename_i stands
    exact stands.2
  · rw [offer_cm]
    simp only [Cm.risen, if_pos state]
    exact bitHas_bitAdd_self _ (cond_idx_lt c)

theorem follow_live_self {c : Cond} {was isNow : Bool} (state : c.isState = true) (turns : was ≠ isNow) (detail : Nat)
    (s : State) : bitHas (follow c was isNow detail s).cm.live c.idx = isNow := by
  unfold follow
  rw [if_neg turns]
  cases isNow with
  | true => exact rise_live_self state detail s
  | false => exact bitHas_bitDrop_self _

theorem follow_live_ne {c : Cond} {i : Nat} (h : i ≠ c.idx) (was isNow : Bool) (detail : Nat) (s : State) :
    bitHas (follow c was isNow detail s).cm.live i = bitHas s.cm.live i := by
  unfold follow
  split
  · rfl
  · split
    · exact rise_live_ne detail h
    · exact fall_live_ne h

theorem when_follow_live_ne {c : Cond} {i : Nat} (h : i ≠ c.idx) (b : Bool) (was isNow : Bool) (detail : Nat) (s : State) :
    bitHas ((if b = true then follow c was isNow detail else id) s).cm.live i = bitHas s.cm.live i := by
  cases b with
  | true => exact follow_live_ne h was isNow detail s
  | false => rfl

theorem reportBands_critical (turns : CriticalTurns old s) :
    bitHas (reportBands old vsys temp s).cm.live Cond.supplyCritical.idx = decide (s.sm.supply = .critical) := by
  unfold reportBands
  dsimp only
  rw [follow_live_ne (by decide), when_follow_live_ne (by decide)]
  exact follow_live_self rfl turns _ _

theorem reportBands_low (turns : Supply.isLow old.supply ≠ Supply.isLow s.sm.supply) :
    bitHas (reportBands old vsys temp s).cm.live Cond.supplyLow.idx = Supply.isLow s.sm.supply := by
  unfold reportBands
  dsimp only
  rw [follow_live_ne (by decide)]
  cases low : Supply.isLow old.supply with
  | true =>
    rw [low] at turns
    exact follow_live_self rfl turns _ _
  | false =>
    rw [low] at turns
    exact (follow_live_ne (by decide) _ _ _ _).trans (follow_live_self rfl turns _ _)

theorem reportBands_warm (turns : old.thermal ≠ s.sm.thermal) :
    bitHas (reportBands old vsys temp s).cm.live Cond.thermalWarm.idx = decide (s.sm.thermal = .warm) := by
  have turns : decide (old.thermal = .warm) ≠ decide (s.sm.thermal = .warm) := by
    revert turns
    cases old.thermal <;> cases s.sm.thermal <;> decide
  exact follow_live_self rfl turns _ _

theorem reportBands_heeds (old : Sm) (vsys : Nat) (temp : Int) (s : State) : Heeds s (reportBands old vsys temp s) := by
  have follows : ∀ c was isNow detail v, Heeds v (follow c was isNow detail v) := fun c was isNow detail v => by
    unfold follow
    split
    · exact (Carried.refl v).toHeeds
    · split
      · exact rise_heeds c detail v
      · exact fall_heeds c v
  have whenever : ∀ (b : Prop) [Decidable b] c was isNow detail v,
      Heeds v ((if b then follow c was isNow detail else id) v) := fun b _ c was isNow detail v => by
    split
    · exact follows c was isNow detail v
    · exact (Carried.refl v).toHeeds
  exact (((whenever _ _ _ _ _ _).trans (follows _ _ _ _ _)).trans (whenever _ _ _ _ _ _)).trans (follows _ _ _ _ _)

/-- A live flag of the bands stands as SM reported it, wherever among the reports of R107 its own comes. -/
theorem handOn_live {i : Nat} {b : Bool} (lo : 8 ≤ i) (hi : i ≤ 10)
    (reported : ∀ v, SameBands s v → bitHas (reportBands old vsys temp v).cm.live i = b) :
    bitHas (handOn old vsys temp s).cm.live i = b := by
  rw [(handOn_noticed old vsys temp s).live i lo hi]
  unfold handBands
  split
  · exact reported s (.refl s)
  · exact anyOrder_turns_last (P := SameBands s) (Q := fun v => bitHas v.cm.live i = b)
      (fun v h => h.trans (nextChoice_sameBands v)) (fun _ h => h) reported
      (fun v h => h.trans (pdcSupply_sameBands v)) (fun v h => ((pdcSupply_carried v).live i lo hi).trans h)
      (fun v h => h.trans (spuSupply_sameBands v))
      (fun v h => (congrArg (bitHas · i) ((spuSupply_changes v).same .live (by decide))).trans h) (.refl s)

theorem handOn_critical (turns : CriticalTurns old s) :
    bitHas (handOn old vsys temp s).cm.live Cond.supplyCritical.idx = decide (s.sm.supply = .critical) :=
  handOn_live (by decide) (by decide) fun v same => by
    rw [← same.1]
    exact reportBands_critical (by rwa [CriticalTurns, same.1])

theorem handOn_low (turns : Supply.isLow old.supply ≠ Supply.isLow s.sm.supply) :
    bitHas (handOn old vsys temp s).cm.live Cond.supplyLow.idx = Supply.isLow s.sm.supply :=
  handOn_live (by decide) (by decide) fun v same => by
    rw [← same.1]
    exact reportBands_low (by rwa [same.1])

theorem handOn_warm (turns : old.thermal ≠ s.sm.thermal) :
    bitHas (handOn old vsys temp s).cm.live Cond.thermalWarm.idx = decide (s.sm.thermal = .warm) :=
  handOn_live (by decide) (by decide) fun v same => by
    rw [← same.2]
    exact reportBands_warm (by rwa [same.2])

/-! ### The report to PDC (R133, R134) -/

theorem stopCharging_pdc (s : State) : (stopCharging s).pdc = { s.pdc with setpoint := 0, grant := 0 } := by
  unfold stopCharging withdrawPen
  split <;> rfl

theorem stopCharging_pen (s : State) : (stopCharging s).rba.pen = none := by
  unfold stopCharging withdrawPen
  split <;> rename_i claim
  · exact claim
  · rfl

theorem suspendPen_suspended (s : State) :
    (suspendPen s).pdc.state = .suspended ∧ (suspendPen s).pdc.setpoint = 0 ∧ (suspendPen s).rba.pen = none :=
  ⟨rfl, congrArg Pdc.setpoint (stopCharging_pdc s), stopCharging_pen s⟩

theorem stopCharging_reasons (s : State) : (stopCharging s).pdc.reasons = s.pdc.reasons := by
  rw [stopCharging_pdc]

/-- The phase choice and a suspension leave the suspend-reason set. -/
theorem suspendPen_reasons (s : State) : (suspendPen s).pdc.reasons = s.pdc.reasons := stopCharging_reasons s

theorem reachFull_reasons (s : State) : (reachFull s).pdc.reasons = s.pdc.reasons := stopCharging_reasons s

theorem enterFault_reasons (reason : PenFault) (s : State) : (enterFault reason s).pdc.reasons = s.pdc.reasons := by
  unfold enterFault
  rw [(rise_changes _ _ _).pdc_eq (by decide)]
  exact stopCharging_reasons s

theorem enterPhase_reasons (ph : ChargePhase) (s : State) : (enterPhase ph s).pdc.reasons = s.pdc.reasons := by
  unfold enterPhase
  dsimp only
  repeat' split
  all_goals rfl

theorem openCycle_reasons (s : State) : (openCycle s).pdc.reasons = s.pdc.reasons := by
  unfold openCycle
  split <;> rfl

theorem phaseChoice_reasons (s : State) : (phaseChoice s).pdc.reasons = s.pdc.reasons := by
  unfold phaseChoice
  split
  · rfl
  · split
    · exact enterFault_reasons _ s
    · split
      · exact reachFull_reasons s
      · split
        · exact suspendPen_reasons s
        · exact (enterPhase_reasons _ _).trans (openCycle_reasons s)

theorem changeReasons_reasons (new : BitVec 3) (s : State) : (changeReasons new s).pdc.reasons = new := by
  unfold changeReasons
  dsimp only
  split
  · exact suspendPen_reasons _
  · split
    · exact phaseChoice_reasons _
    · rfl

theorem withReason_has (r : SuspendReason) (present : Bool) (set : BitVec 3) :
    bitHas (withReason r present set) r.idx = present := by
  cases present with
  | true => exact bitHas_bitAdd_self _ (by cases r <;> decide)
  | false => exact bitHas_bitDrop_self _

theorem pdcSupply_pdc (s : State) :
    (pdcSupply s).pdc =
      (changeReasons (withReason .supply (decide (s.sm.supply = .critical)) s.pdc.reasons) s).pdc :=
  (pdcStep_frame _ s).pdc_eq (by decide)

/-- R133: the set holds SUPPLY in CRITICAL. -/
theorem pdcSupply_reasons (s : State) :
    bitHas (pdcSupply s).pdc.reasons SuspendReason.supply.idx = decide (s.sm.supply = .critical) := by
  rw [pdcSupply_pdc, changeReasons_reasons]
  exact withReason_has .supply _ _

/-- R134: the first reason suspends a pen that charges or waits for a grant. -/
theorem pdcSupply_suspends (critical : s.sm.supply = .critical) (none : s.pdc.reasons = 0)
    (charges : PdcState.charging s.pdc.state = true ∨ s.pdc.state = .waitGrant) :
    (pdcSupply s).pdc.state = .suspended ∧ (pdcSupply s).pdc.setpoint = 0 ∧ (pdcSupply s).rba.pen = .none := by
  have some : withReason .supply (decide (s.sm.supply = .critical)) s.pdc.reasons ≠ 0 :=
    ne_zero_of_bitHas (i := SuspendReason.supply.idx) ((withReason_has _ _ _).trans (decide_eq_true critical))
  have claim : (pdcSupply s).rba.pen =
      (changeReasons (withReason .supply (decide (s.sm.supply = .critical)) s.pdc.reasons) s).rba.pen :=
    (pdcStep_frame _ s).same .penClaim (by decide)
  have suspends : changeReasons (withReason .supply (decide (s.sm.supply = .critical)) s.pdc.reasons) s =
      suspendPen { s with
        pdc := { s.pdc with reasons := withReason .supply (decide (s.sm.supply = .critical)) s.pdc.reasons } } :=
    if_pos ⟨none, some, charges⟩
  rw [pdcSupply_pdc, claim, suspends]
  exact suspendPen_suspended _

theorem handOn_reasons (turns : CriticalTurns old s) :
    bitHas (handOn old vsys temp s).pdc.reasons SuspendReason.supply.idx = decide (s.sm.supply = .critical) := by
  rw [(handOn_noticed old vsys temp s).reasons, handBands_turning turns]
  exact anyOrder_turns (P := SameBands s)
    (Q := fun v => bitHas v.pdc.reasons SuspendReason.supply.idx = decide (s.sm.supply = .critical))
    (fun v h => h.trans (nextChoice_sameBands v)) (fun _ h => h) (fun v h => by rw [← h.1]; exact pdcSupply_reasons v)
    (fun v h => h.trans (spuSupply_sameBands v)) (fun v h => by rwa [(spuSupply_changes v).pdc_eq (by decide)])
    (fun v h => h.trans (reportBands_sameBands old vsys temp v))
    (fun v h => by rwa [(reportBands_changes old vsys temp v).pdc_eq (by decide)]) (.refl s)

/-- PDC's record and the bands stand. -/
def SamePen (s t : State) : Prop := SameBands s t ∧ t.pdc = s.pdc

theorem handOn_suspends (turns : CriticalTurns old s) (critical : s.sm.supply = .critical) (none : s.pdc.reasons = 0)
    (charges : PdcState.charging s.pdc.state = true ∨ s.pdc.state = .waitGrant) :
    (handOn old vsys temp s).pdc.state = .suspended ∧ (handOn old vsys temp s).pdc.setpoint = 0 ∧
    (handOn old vsys temp s).rba.pen = .none := by
  have bands : (handBands old vsys temp s).pdc.state = .suspended ∧ (handBands old vsys temp s).pdc.setpoint = 0 ∧
      (handBands old vsys temp s).rba.pen = .none := by
    rw [handBands_turning turns]
    have quiet : ∀ {m v w}, Changes m v w → (∀ p ∈ .penClaim :: pdcParts, p ∉ m) →
        w.rba.pen = v.rba.pen ∧ w.pdc = v.pdc := fun c hm =>
      ⟨c.same .penClaim (hm _ (by decide)), c.pdc_eq fun p hp => hm p (List.mem_cons_of_mem _ hp)⟩
    have spu := fun v => quiet (spuSupply_changes v) (by decide)
    have reports := fun v => quiet (reportBands_changes old vsys temp v) (by decide)
    refine anyOrder_turns (P := SamePen s)
      (Q := fun v => v.pdc.state = .suspended ∧ v.pdc.setpoint = 0 ∧ v.rba.pen = .none)
      (fun v h => ⟨h.1.trans (nextChoice_sameBands v), h.2⟩) (fun _ h => h) (fun v h => ?_)
      (fun v h => ⟨h.1.trans (spuSupply_sameBands v), (spu v).2.trans h.2⟩) (fun v h => ?_)
      (fun v h => ⟨h.1.trans (reportBands_sameBands old vsys temp v), (reports v).2.trans h.2⟩) (fun v h => ?_)
      ⟨.refl s, rfl⟩
    · exact pdcSupply_suspends (h.1.1.trans critical) (by rw [h.2, none]) (by rwa [h.2])
    · rwa [(spu v).1, (spu v).2]
    · rwa [(reports v).1, (reports v).2]
  obtain ⟨state, setpoint, claim⟩ := bands
  obtain ⟨claim, pdc⟩ := (handOn_noticed old vsys temp s).unclaimed claim
  exact ⟨by rw [pdc, state], by rw [pdc, setpoint], claim⟩

/-! ### The report to SPU (R147, R149, R150) -/

/-- Between `s` and `t` SPU evaluates SUPPLY once, with the bands and the sleep policy of `s`. -/
def Evaluates (s t : State) : Prop :=
  ∃ v, Heeds s v ∧ SameBands s v ∧ v.settings.sleep = s.settings.sleep ∧ Heeds (spuSupply v) t

theorem Evaluates.before (h : Heeds s u) (bands : SameBands s u) (sleep : u.settings.sleep = s.settings.sleep)
    (g : Evaluates u t) : Evaluates s t :=
  let ⟨v, heeds, same, policy, after⟩ := g
  ⟨v, h.trans heeds, bands.trans same, policy.trans sleep, after⟩

theorem Evaluates.after (h : Evaluates s t) (g : Heeds t u) : Evaluates s u :=
  let ⟨v, heeds, same, policy, after⟩ := h
  ⟨v, heeds, same, policy, after.trans g⟩

theorem Evaluates.advises (h : Evaluates s t) : Advises s t :=
  let ⟨v, before, _, _, after⟩ := h
  (before.toAdvises.trans (evalTrigger_advises .supply v)).trans after.toAdvises

/-- What SPU has before it evaluates SUPPLY. -/
def Unevaluated (s v : State) : Prop := Heeds s v ∧ SameBands s v ∧ v.settings.sleep = s.settings.sleep

theorem handOn_evaluates (turns : CriticalTurns old s) : Evaluates s (handOn old vsys temp s) := by
  refine .after ?_ (handOn_noticed old vsys temp s).toHeeds
  rw [handBands_turning turns]
  have pdc := fun v => (pdcSupply_carried v).toHeeds
  have reports := reportBands_heeds old vsys temp
  have policy : ∀ {m v w}, Changes m v w → .sleepPolicy ∉ m → w.settings.sleep = v.settings.sleep := fun c hm =>
    c.same .sleepPolicy hm
  exact anyOrder_turns_middle (P := Unevaluated s) (Q := Evaluates s)
    (fun v h => ⟨h.1.trans (nextChoice_carried v).toHeeds, h.2.1.trans (nextChoice_sameBands v), h.2.2⟩)
    (fun v h => h.after (nextChoice_carried v).toHeeds)
    (fun v h => ⟨v, h.1, h.2.1, h.2.2, (Carried.refl _).toHeeds⟩)
    (fun v h => ⟨h.1.trans (pdc v), h.2.1.trans (pdcSupply_sameBands v),
      (policy (pdcSupply_changes v) (by decide)).trans h.2.2⟩)
    (fun v h => h.after (pdc v))
    (fun v h => ⟨h.1.trans (reports v), h.2.1.trans (reportBands_sameBands old vsys temp v),
      (policy (reportBands_changes old vsys temp v) (by decide)).trans h.2.2⟩)
    (fun v h => h.after (reports v))
    ⟨(Carried.refl s).toHeeds, .refl s, rfl⟩

theorem triggerHolds_supply (s : State) :
    triggerHolds .supply s = condition s.settings.sleep s.spu.view s.sm.supply .supply := by
  simp only [triggerHolds, condition, triggerEnable, Bool.decide_and]
  rfl

/-- R149: a trigger that matures under an awake host offers SLEEP_ADVICE. -/
theorem mature_waits {tr : Trigger} (awake : s.spu.state = .awake ∨ s.spu.state = .advised) (h : Taking .sleep s.lc) :
    Waits (.sleepAdvice (bitAdd 0 tr.idx) (bitAdd s.spu.advised tr.idx)) (mature tr s).lc := by
  unfold mature
  simp only [setTrigger_state, setTrigger_advised]
  rw [if_pos awake]
  exact offer_waits rfl h

/-- R147: SUPPLY matures at once. -/
theorem triggerBegins_supply (s : State) :
    triggerBegins .supply s =
      mature .supply { s with spu := { s.spu with supply := { s.spu.supply with holds := true } } } := rfl

theorem triggerEnds_supply (s : State) :
    (triggerEnds .supply s).spu.supply = .idle ∧
    bitHas (triggerEnds .supply s).spu.advised Trigger.supply.idx = false := by
  unfold triggerEnds
  dsimp only
  split
  · split
    · rw [offer_spu]
      exact ⟨rfl, bitHas_bitDrop_self _⟩
    · exact ⟨rfl, bitHas_bitDrop_self _⟩
  · rename_i clear
    exact ⟨rfl, Bool.eq_false_iff.mpr clear⟩

/-- R147, R149: SPU at a SUPPLY condition that begins to hold. -/
theorem triggerBegins_supply_spu (s : State) :
    (triggerBegins .supply s).spu.supply = { s.spu.supply with holds := true, timer := none, matured := true } ∧
    (s.spu.state = .awake ∨ s.spu.state = .advised →
      bitHas (triggerBegins .supply s).spu.advised Trigger.supply.idx = true ∧
      (triggerBegins .supply s).spu.state = .advised) := by
  rw [triggerBegins_supply, mature_spu]
  dsimp only
  refine ⟨?_, fun awake => ?_⟩
  · split <;> rfl
  · rw [if_pos awake]
    exact ⟨bitHas_bitAdd_self _ (trigger_idx_lt .supply), rfl⟩

theorem Evaluates.triggerMoves (h : Evaluates s t) :
    triggerMoves .supply (condition s.settings.sleep s.spu.view s.sm.supply .supply) s.settings.sleep s t := by
  have advises := h.advises
  obtain ⟨v, before, same, policy, after⟩ := h
  have holds : condition s.settings.sleep s.spu.view s.sm.supply .supply = triggerHolds .supply v := by
    rw [triggerHolds_supply, policy, same.1]
    rfl
  have record : v.spu.supply = s.spu.supply := before.record
  rw [holds]
  refine ⟨fun unturned => ?_, fun begins idle => ⟨fun h => absurd rfl h, fun _ => ?_⟩, fun ends held => ?_⟩
  · have stays : spuSupply v = v := if_pos (unturned.trans (congrArg TriggerRec.holds record.symm))
    rw [stays] at after
    exact after.record.trans record
  · have evaluated : spuSupply v = triggerBegins .supply v := by
      have turns : ¬ triggerHolds .supply v = (triggerRec .supply v.spu).holds := by
        change ¬ triggerHolds .supply v = v.spu.supply.holds
        rw [begins, record]
        exact fun e => by cases e.trans idle
      exact (if_neg turns).trans (if_pos begins)
    rw [evaluated] at after
    obtain ⟨begun, advised⟩ := triggerBegins_supply_spu v
    refine ⟨after.record.trans begun, fun awake => ?_⟩
    have awake := before.host awake
    obtain ⟨reason, state⟩ := advised awake
    refine ⟨after.reason.trans reason, after.stands state reason, _,
      bitHas_bitAdd_self v.spu.advised (trigger_idx_lt .supply), fun sending granted => ?_⟩
    have taking : Taking .sleep v.lc := before.told.taking ⟨sending, granted⟩
    exact (after.told.waits rfl (mature_waits (tr := .supply)
      (s := { v with spu := { v.spu with supply := { v.spu.supply with holds := true } } }) awake taking)).queued
  · have evaluated : spuSupply v = triggerEnds .supply v := by
      have turns : ¬ triggerHolds .supply v = (triggerRec .supply v.spu).holds := by
        change ¬ triggerHolds .supply v = v.spu.supply.holds
        rw [ends, record]
        exact fun e => by cases e.trans held
      exact (if_neg turns).trans (if_neg (by rw [ends]; decide))
    rw [evaluated] at after
    obtain ⟨ended, clear⟩ := triggerEnds_supply v
    refine ⟨after.record.trans ended, after.reason.trans clear, fun state reason last => ?_⟩
    rcases advises.ends ⟨state, ne_zero_of_bitHas reason⟩ with more | ⟨awake, waits⟩
    · exact absurd last more.2
    · exact ⟨awake, fun sending granted => (waits ⟨sending, granted⟩).queued⟩

end Sys2Proof.Machine

/-!
The notices of a new grant (R115, R130, R62, R66, R92, R93).

PDC's notice is read off `takeNotice`. BM's two notices come before or after PDC's and each other's, so each is stated as
what turns a property `P` into `Q`, and the other notices keep both.
-/
namespace Sys2Proof.Machine

open Sys2Proof.Claims

variable {s t u v r : State} {m : List Part} {c : Claim} {old : Grants} {P Q : State → Prop}

/-! ### PDC's notice (R130) -/

theorem takeNotice_grant (grant : Nat) (s : State) : (takeNotice grant s).pdc.grant = grant := by
  unfold takeNotice
  dsimp only
  split
  iterate 3 split <;> rfl
  · split
    · rfl
    · split <;> rfl
  · rfl

/-- A charging phase without current waits for a grant. -/
theorem takeNotice_waits (ph : ChargePhase) (h : s.pdc.state = phaseState ph) :
    takeNotice 0 s = waitGrant ph { s with pdc := { s.pdc with grant := 0 } } := by
  unfold takeNotice
  cases ph <;> simp only [h, phaseState] <;> rfl

/-- A charging phase with current goes on at its new grant. -/
theorem takeNotice_runs {grant : Nat} (ph : ChargePhase) (h : s.pdc.state = phaseState ph) (current : grant ≠ 0) :
    takeNotice grant s = runPhase ph { s with pdc := { s.pdc with grant := grant } } := by
  unfold takeNotice
  cases ph <;> simp only [h, phaseState, if_neg current]

/-- A phase that waits is entered again when its grant comes. -/
theorem takeNotice_resumes {grant : Nat} {ph : ChargePhase} (h : s.pdc.state = .waitGrant) (hph : s.pdc.remembered = some ph)
    (current : grant ≠ 0) : takeNotice grant s = runPhase ph { s with pdc := { s.pdc with grant := grant } } := by
  unfold takeNotice
  simp only [h, hph, if_neg current]

theorem takeNotice_waits_on (h : s.pdc.state = .waitGrant) :
    takeNotice 0 s = { s with pdc := { s.pdc with grant := 0 } } := by
  unfold takeNotice
  simp only [h]
  rfl

theorem noticePen_pdc (h : s.rba.pen.isSome = true) (new : s.rba.grants.pen ≠ s.pdc.grant) :
    (noticePen s).pdc = (takeNotice s.rba.grants.pen s).pdc := by
  unfold noticePen
  rw [if_pos ⟨h, new⟩]
  exact (pdcStep_frame _ s).pdc_eq (by decide)

theorem charging_phase {p : PdcState} (h : p = .precharge ∨ p = .charge ∨ p = .topoff) : ∃ ph, p = phaseState ph := by
  rcases h with rfl | rfl | rfl
  · exact ⟨.precharge, rfl⟩
  · exact ⟨.charge, rfl⟩
  · exact ⟨.topoff, rfl⟩

/-- R115, R130: PDC's notice, where the table stands at the new capacity. -/
theorem penNoticed_of_notice {capacity : Nat} (hpdc : r.pdc = s.pdc) (hclaim : r.rba.pen = s.rba.pen)
    (hgrants : r.rba.grants = grantTable capacity s.rba.base s.rba.latch s.rba.pen)
    (ht : (grantTable capacity s.rba.base s.rba.latch s.rba.pen).base = s.rba.grants.base →
      (grantTable capacity s.rba.base s.rba.latch s.rba.pen).latch = s.rba.grants.latch →
      t.pdc = (noticePen r).pdc ∧ t.rba.pen = (noticePen r).rba.pen) : penNoticed capacity s t := by
  intro hbase hlatch filed _
  have pen : r.rba.grants.pen = (grantTable capacity s.rba.base s.rba.latch s.rba.pen).pen := congrArg Grants.pen hgrants
  obtain ⟨hpdc', hpen⟩ := ht hbase hlatch
  rw [hpdc', ← pen]
  refine ⟨fun same => ?_, fun new => ?_⟩
  · unfold noticePen
    rw [if_neg fun h => h.2 (by rw [hpdc, same]), hpdc]
  rw [noticePen_pdc (by rwa [hclaim]) (by rwa [hpdc])]
  refine ⟨takeNotice_grant _ r, fun runs current => ?_, fun ph runs none => ?_, fun waits ph kept current => ?_,
    fun waits none => ?_⟩
  · obtain ⟨ph, runs⟩ := charging_phase runs
    rw [takeNotice_runs ph (by rw [hpdc, runs]) current, runs]
    exact ⟨rfl, rfl, fun low => if_pos low⟩
  · have runs : r.pdc.state = phaseState ph := by
      rw [hpdc]
      cases ph <;> exact runs
    rw [none, takeNotice_waits ph runs]
    exact ⟨rfl, rfl, rfl, by rw [hpen, noticePen_rba, hclaim]⟩
  · rw [takeNotice_resumes (by rw [hpdc, waits]) (by rw [hpdc, kept]) current]
    cases ph <;> exact ⟨rfl, rfl, rfl⟩
  · have waits : r.pdc.state = .waitGrant := by rw [hpdc, waits]
    rw [none, takeNotice_waits_on waits]
    exact ⟨waits, by rw [hpdc]⟩

/-! ### BM's notices among the others (R115) -/

theorem baseNotice_filed (filed : r.rba.base = some c) (new : r.rba.grants.base ≠ old.base) :
    baseNotice old r = noticeBase := if_pos (by simp [filed, new])

theorem baseNotice_unchanged (same : r.rba.grants.base = old.base) (v : State) : baseNotice old r v = v := by
  unfold baseNotice
  rw [if_neg (by simp [same])]
  rfl

theorem latchNotice_filed (filed : r.rba.latch.isSome = true) (new : r.rba.grants.latch ≠ old.latch) :
    latchNotice old r = noticeLatch := if_pos (by simp [filed, new])

/-- A notice for the LATCH claim reaches BM in RELEASING. -/
theorem latchNotice_elsewhere (h : v.bm.state ≠ .releasing ∨ r.rba.grants.latch = old.latch) : latchNotice old r v = v := by
  unfold latchNotice
  split
  · rename_i notified
    simp only [Bool.and_eq_true, decide_eq_true_eq] at notified
    exact if_neg (h.resolve_right notified.2)
  · rfl

/-- The notice for the BASE claim turns `P` into `Q`, wherever among the notices it comes. -/
theorem noticeAll_turns_base (hcP : ∀ v, P v → P v.nextChoice) (hcQ : ∀ v, Q v → Q v.nextChoice)
    (filed : r.rba.base = some c) (new : r.rba.grants.base ≠ old.base) (base : ∀ v, P v → Q (noticeBase v))
    (latchP : ∀ v, P v → v.bm.state ≠ .releasing ∨ r.rba.grants.latch = old.latch)
    (latchQ : ∀ v, Q v → v.bm.state ≠ .releasing ∨ r.rba.grants.latch = old.latch)
    (penP : ∀ v, P v → P (noticePen v)) (penQ : ∀ v, Q v → Q (noticePen v)) (h : P r) : Q (noticeAll old r) := by
  have idleP : ∀ v, P v → P (latchNotice old r v) := fun v hv => by rwa [latchNotice_elsewhere (latchP v hv)]
  have idleQ : ∀ v, Q v → Q (latchNotice old r v) := fun v hv => by rwa [latchNotice_elsewhere (latchQ v hv)]
  rcases noticeAll_cases old r with e | e <;> rw [e, baseNotice_filed filed new]
  · exact anyOrder_turns hcP hcQ base idleP idleQ penP penQ h
  · exact penQ _ (idleQ _ (base _ h))

/-- The notice for the LATCH claim turns `P` into `Q`, wherever among the notices it comes. -/
theorem noticeAll_turns_latch (hcP : ∀ v, P v → P v.nextChoice) (hcQ : ∀ v, Q v → Q v.nextChoice)
    (filed : r.rba.latch.isSome = true) (new : r.rba.grants.latch ≠ old.latch) (latch : ∀ v, P v → Q (noticeLatch v))
    (baseP : ∀ v, P v → P (baseNotice old r v)) (baseQ : ∀ v, Q v → Q (baseNotice old r v))
    (penP : ∀ v, P v → P (noticePen v)) (penQ : ∀ v, Q v → Q (noticePen v)) (h : P r) : Q (noticeAll old r) := by
  rcases noticeAll_cases old r with e | e <;> rw [e, latchNotice_filed filed new]
  · exact anyOrder_turns_middle hcP hcQ latch baseP baseQ penP penQ h
  · exact penQ _ (latch _ (baseP _ h))

/-! ### What a notice to PDC leaves -/

theorem noticePen_frame (s : State) : Changes relayParts s (noticePen s) := (noticePen_relayed s).frame

theorem noticePen_state (s : State) : (noticePen s).bm.state = s.bm.state := (noticePen_frame s).same .bmState (by decide)

theorem noticePen_active (s : State) : (noticePen s).bm.active = s.bm.active := (noticePen_frame s).same .active (by decide)

theorem noticePen_det (s : State) : (noticePen s).det = s.det := (noticePen_frame s).det_eq (by decide)

theorem noticePen_now (s : State) : (noticePen s).now = s.now := (noticePen_frame s).same .now (by decide)

theorem noticePen_bpwr (s : State) : (noticePen s).bm.bpwr = s.bm.bpwr := by
  have identify := (noticePen_frame s).same .identify (by decide)
  simp only [Part.Same, Prod.mk.injEq] at identify
  exact identify.1

theorem noticePen_window (s : State) : (noticePen s).settings.detach = s.settings.detach :=
  (noticePen_frame s).same .detachPolicy (by decide)

/-- With no base attached a notice to PDC leaves BM's record. -/
theorem noticePen_baseAt {b : Bm} {sent : List BaseTx} {now : Nat} (loose : BmState.hasBase b.state = false)
    (h : BaseAt b sent now s) : BaseAt b sent now (noticePen s) :=
  have calm : Calm s := .inl (by rw [h.1]; exact loose)
  (calm.after.relayed (noticePen_relayed s)).baseAt h

/-! ### The notice for the BASE claim (R62, R66, R93) -/

/-- R114: a claim whose minimum is its request is granted in full where the capacity reaches it. -/
theorem grantOf_whole {capacity : Nat} (whole : c.minimum = c.requested) (short : grantOf capacity (some c) ≠ c.requested) :
    capacity < c.requested := by
  refine Nat.lt_of_not_le fun fits => short ?_
  simp only [grantOf, whole, min_eq_left fits, le_refl, if_true]

theorem baseGranted_filed (filed : s.rba.base = some c) : baseGranted s = decide (s.rba.grants.base = c.requested) := by
  simp only [baseGranted, filed]

theorem baseAmount_filed (filed : s.rba.base = some c) : baseAmount s = c.requested := by
  rw [baseAmount, filed]
  rfl

theorem claim_whole (whole : c.minimum = c.requested) : ({ requested := c.requested, minimum := c.requested } : Claim) = c := by
  cases c
  exact congrArg _ whole.symm

theorem asking_elsewhere (now : Nat) (b : Bm) : (b.asking now).state ≠ .releasing :=
  (by decide : BmState.identifying ≠ .releasing)

theorem powering_elsewhere (b : Bm) : b.powering.state ≠ .releasing := (by decide : BmState.powering ≠ .releasing)

/-- R62: BM in POWERING takes its grant. -/
theorem noticeAll_powers (filed : r.rba.base = some c) (new : r.rba.grants.base ≠ old.base) (hs : r.bm.state = .powering)
    (granted : r.rba.grants.base = c.requested) :
    BaseAt (r.bm.asking r.now) (r.btx ++ [.identQuery]) r.now (noticeAll old r) := by
  refine noticeAll_turns_base (P := fun v => BaseAt r.bm r.btx r.now v ∧ v.rba = r.rba)
    (Q := BaseAt (r.bm.asking r.now) (r.btx ++ [.identQuery]) r.now) (fun _ h => h) (fun _ h => h) filed new
    (fun v ⟨base, rba⟩ => ?_) (fun v h => .inl (by rw [h.1.1, hs]; decide))
    (fun v h => .inl (by rw [h.1]; exact asking_elsewhere _ _))
    (fun v ⟨base, rba⟩ => ⟨noticePen_baseAt (by rw [hs]; rfl) base, (noticePen_rba v).trans rba⟩)
    (fun v h => noticePen_baseAt rfl h) ⟨baseAt_self r, rfl⟩
  have state : v.bm.state = .powering := by rw [base.1, hs]
  have powered : noticeBase v = startIdentify v := by
    have on : baseGranted v = true := by rw [baseGranted_filed (by rw [rba, filed]), rba, granted, decide_eq_true rfl]
    simp only [noticeBase, state, powerIfGranted, on, if_true]
  rw [powered]
  exact startIdentify_baseAt base

/-- R66: an identification whose claim is no longer granted goes back to POWERING. -/
theorem noticeAll_unpowers (filed : r.rba.base = some c) (whole : c.minimum = c.requested)
    (new : r.rba.grants.base ≠ old.base) (hs : r.bm.state = .identifying) (short : r.rba.grants.base ≠ c.requested)
    (less : r.rba.capacity < c.requested) :
    BaseAt r.bm.powering r.btx r.now (noticeAll old r) ∧ (noticeAll old r).rba.base = some c := by
  refine noticeAll_turns_base (P := fun v => BaseAt r.bm r.btx r.now v ∧ v.rba = r.rba)
    (Q := fun v => BaseAt r.bm.powering r.btx r.now v ∧ v.rba.base = some c) (fun _ h => h) (fun _ h => h) filed new
    (fun v ⟨base, rba⟩ => ?_) (fun v h => .inl (by rw [h.1.1, hs]; decide))
    (fun v h => .inl (by rw [h.1.1]; exact powering_elsewhere _))
    (fun v ⟨base, rba⟩ => ⟨noticePen_baseAt (by rw [hs]; rfl) base, (noticePen_rba v).trans rba⟩)
    (fun v ⟨base, claim⟩ => ⟨noticePen_baseAt rfl base, by rwa [noticePen_rba]⟩) ⟨baseAt_self r, rfl⟩
  have state : v.bm.state = .identifying := by rw [base.1, hs]
  have claim : v.rba.base = some c := by rw [rba, filed]
  have lost : noticeBase v = toPowering c.requested v := by
    have off : baseGranted v = false := by rw [baseGranted_filed claim, rba, decide_eq_false short]
    simp only [noticeBase, state, off, baseAmount_filed claim, Bool.false_eq_true, if_false]
  obtain ⟨bm, btx, now⟩ := toPowering_ungranted (s := v) (amount := c.requested) (by rwa [rba])
  rw [lost, (toPowering_rba _ _).1, claim_whole whole]
  rw [base.1] at bm
  exact ⟨⟨bm, btx.trans base.2.1, now.trans base.2.2⟩, rfl⟩

/-- BM has lost the power of the base that was attached in `r`: it waits in POWERING, the deadline and the attempt's base are
gone, and BASE_LOST is told (R66, R93). -/
structure PowerLost (c : Claim) (r v : State) : Prop where
  state : v.bm.state = .powering
  supply : v.bm.bpwr = false
  active : v.bm.active = none
  stream : v.bm.stream = .running
  deadline : v.det.deadline = .none
  outcome : v.det.outcome = r.det.outcome
  claim : v.rba.base = some c
  latched : bitHas v.cm.latched Cond.baseLost.idx = true
  waits : Taking .base r.lc → Waits (.baseLost .noPower r.bm.active) v.lc

theorem PowerLost.through (h : PowerLost c r v) (e : Changes calmParts v u) (claim : u.rba.base = v.rba.base)
    (told : Told v.lc u.lc) : PowerLost c r u := by
  have bm : u.bm = v.bm := e.bm_eq (by decide)
  have det : u.det = v.det := e.det_eq (by decide)
  have latched : u.cm.latched = v.cm.latched := e.same .latched (by decide)
  exact ⟨bm ▸ h.state, bm ▸ h.supply, bm ▸ h.active, bm ▸ h.stream, det ▸ h.deadline, det ▸ h.outcome, claim.trans h.claim,
    latched ▸ h.latched, fun k => told.waits rfl (h.waits k)⟩

theorem lossOfPower_eq (s : State) : lossOfPower s = powerIfGranted (outageFiled id s) :=
  lossOfPowerAfter_eq id s

theorem lossOfPower_det (s : State) : (lossOfPower s).det = (outage s).det := (lossOfPowerAfter_records telling_id s).1

/-- R66: a loss of power whose claim the rail does not reach leaves BM in POWERING. -/
theorem lossOfPower_powerLost (filed : s.rba.base = some c) (whole : c.minimum = c.requested)
    (less : s.rba.capacity < c.requested) : PowerLost c s (lossOfPower s) := by
  have amount := baseAmount_filed filed
  have report : (bmReport false (outageActs id s.bm.active) (outage s)).rba = s.rba :=
    (bmReport_changes (m := actParts) (a := false) (by decide)
      (fun v => (outageActs_changes telling_id s.bm.active v).mono (by decide)) (outage s)).rba_eq (by decide)
  have off : baseGranted (outageFiled id s) = false := by
    rw [outageFiled, baseGranted_fileBase, report, amount]
    exact decide_eq_false (Nat.not_le.mpr less)
  have powering : lossOfPower s = outageFiled id s := by
    rw [lossOfPower_eq, powerIfGranted, if_neg (by rw [off]; decide)]
  obtain ⟨bm, -, -⟩ := outageFiled_baseAt telling_id s
  rw [← powering] at bm
  obtain ⟨-, claim, -⟩ := lossOfPowerAfter_records telling_id s
  obtain ⟨x, -, latched, -, -⟩ := lossOfPowerAfter_history id s
  refine ⟨by rw [bm]; rfl, by rw [bm]; rfl, by rw [bm]; rfl, by rw [bm]; rfl, by rw [lossOfPower_det]; rfl,
    by rw [lossOfPower_det]; rfl, ?_, ?_, lossOfPowerAfter_lost telling_id⟩
  · rw [amount, claim_whole whole] at claim
    exact claim
  · rw [show (lossOfPower s).cm.latched = _ from latched]
    exact (rise_rose_of_occurrence rfl 2 _).1

/-- Before the notice for the BASE claim: BM's state, its active base, the detach record and the rail are those of `r`. -/
structure Unnoticed (r v : State) : Prop where
  state : v.bm.state = r.bm.state
  active : v.bm.active = r.bm.active
  det : v.det = r.det
  rba : v.rba = r.rba
  now : v.now = r.now
  window : v.settings.detach = r.settings.detach
  told : Told r.lc v.lc

theorem Unnoticed.refl (r : State) : Unnoticed r r := ⟨rfl, rfl, rfl, rfl, rfl, rfl, .refl _⟩

theorem Unnoticed.noticePen (h : Unnoticed r v) : Unnoticed r (noticePen v) :=
  ⟨(noticePen_state v).trans h.state, (noticePen_active v).trans h.active, (noticePen_det v).trans h.det,
    (noticePen_rba v).trans h.rba, (noticePen_now v).trans h.now, (noticePen_window v).trans h.window,
    h.told.trans (noticePen_relayed v).told⟩

theorem Unnoticed.nextChoice (h : Unnoticed r v) : Unnoticed r v.nextChoice :=
  ⟨h.state, h.active, h.det, h.rba, h.now, h.window, h.told⟩

/-- R66, R93: an attached base loses its power. -/
theorem noticeAll_loses (filed : r.rba.base = some c) (whole : c.minimum = c.requested)
    (new : r.rba.grants.base ≠ old.base) (hs : r.bm.state = .attached ∨ r.bm.state = .detachAsked)
    (short : r.rba.grants.base ≠ c.requested) (less : r.rba.capacity < c.requested) : PowerLost c r (noticeAll old r) := by
  refine noticeAll_turns_base (P := Unnoticed r) (Q := PowerLost c r) (fun _ h => h.nextChoice)
    (fun v h => h.through ((nextChoice_changes v).mono (by decide)) rfl (.refl _)) filed new (fun v h => ?_)
    (fun v h => .inl (by rw [h.state]; rcases hs with hs | hs <;> rw [hs] <;> decide))
    (fun v h => .inl (by rw [h.state]; decide)) (fun _ h => h.noticePen) (fun v h => ?_) (.refl r)
  · have claim : v.rba.base = some c := by rw [h.rba, filed]
    have lost : noticeBase v = lossOfPower v := by
      have off : baseGranted v = false := by rw [baseGranted_filed claim, h.rba, decide_eq_false short]
      rcases hs with hs | hs <;>
        simp only [noticeBase, h.state, hs, off, Bool.false_eq_true, if_false]
    have done := lossOfPower_powerLost claim whole (by rwa [h.rba])
    rw [lost]
    exact { done with
      outcome := done.outcome.trans (congrArg Det.outcome h.det)
      waits := fun k => h.active ▸ done.waits (h.told.taking k) }
  · have calm : Calm v := .inl (by rw [h.state]; rfl)
    exact h.through ((noticePen_relayed v).calm calm) (congrArg Rba.base (noticePen_rba v)) (noticePen_relayed v).told

/-- R93: in RELEASING and CLOSING BM switches BPWR off and marks the base unpowered. -/
theorem noticeBase_marks (hs : s.bm.state = .releasing ∨ s.bm.state = .closing) (off : baseGranted s = false) :
    noticeBase s = { s with bm := { s.bm with bpwr := false }, det := { s.det with unpowered := true } } := by
  rcases hs with hs | hs <;> simp only [noticeBase, hs, off, Bool.false_eq_true, if_false]

theorem noticeBase_granted (hs : s.bm.state = .releasing ∨ s.bm.state = .closing) (on : baseGranted s = true) :
    noticeBase s = s := by
  rcases hs with hs | hs <;> simp only [noticeBase, hs, on, if_true]

/-- BM's record while the base is marked unpowered. -/
structure Marked (c : Claim) (r v : State) : Prop where
  state : v.bm.state = r.bm.state
  supply : v.bm.bpwr = false
  mark : v.det.unpowered = true
  claim : v.rba.base = some c

theorem noticeAll_marks (filed : r.rba.base = some c) (new : r.rba.grants.base ≠ old.base)
    (hs : r.bm.state = .closing ∨ r.bm.state = .releasing ∧ r.rba.grants.latch = old.latch)
    (short : r.rba.grants.base ≠ c.requested) : Marked c r (noticeAll old r) := by
  have quiet : ∀ {v : State}, v.bm.state = r.bm.state → v.bm.state ≠ .releasing ∨ r.rba.grants.latch = old.latch :=
    fun {v} hv => hs.imp (fun closing => by rw [hv, closing]; decide) And.right
  refine noticeAll_turns_base (P := Unnoticed r) (Q := Marked c r) (fun _ h => h.nextChoice)
    (fun _ h => ⟨h.state, h.supply, h.mark, h.claim⟩) filed new (fun v h => ?_) (fun v h => quiet h.state)
    (fun v h => quiet h.state) (fun _ h => h.noticePen) (fun v h => ?_) (.refl r)
  · have claim : v.rba.base = some c := by rw [h.rba, filed]
    have state : v.bm.state = .releasing ∨ v.bm.state = .closing := by
      rw [h.state]
      exact hs.symm.imp And.left id
    rw [noticeBase_marks state (by rw [baseGranted_filed claim, h.rba, decide_eq_false short])]
    exact ⟨h.state, rfl, rfl, claim⟩
  · exact ⟨(noticePen_state v).trans h.state, (noticePen_bpwr v).trans h.supply, by rw [noticePen_det, h.mark],
      by rw [noticePen_rba, h.claim]⟩

/-! ### The notice for the LATCH claim (R89, R92, R94) -/

/-- In RELEASING and CLOSING a notice for the BASE claim moves the supply of the base and the mark at most. -/
theorem noticeBase_held (hs : s.bm.state = .releasing ∨ s.bm.state = .closing) :
    ∃ supply mark,
      noticeBase s = { s with bm := { s.bm with bpwr := supply }, det := { s.det with unpowered := mark } } := by
  cases granted : baseGranted s with
  | true => exact ⟨s.bm.bpwr, s.det.unpowered, noticeBase_granted hs granted⟩
  | false => exact ⟨_, _, noticeBase_marks hs granted⟩

/-- BM in RELEASING before its notice for the LATCH claim, at which the notice for the BASE claim may have come. -/
structure Releasing (old : Grants) (r v : State) : Prop where
  state : v.bm.state = .releasing
  rba : v.rba = r.rba
  now : v.now = r.now
  window : v.settings.detach = r.settings.detach
  det : ∃ mark, v.det = { r.det with unpowered := mark }
  mark : r.rba.grants.base = old.base → v.det.unpowered = r.det.unpowered

theorem Releasing.noticePen (h : Releasing old r v) : Releasing old r (noticePen v) :=
  ⟨(noticePen_state v).trans h.state, (noticePen_rba v).trans h.rba, (noticePen_now v).trans h.now,
    (noticePen_window v).trans h.window, by rw [noticePen_det]; exact h.det, by rw [noticePen_det]; exact h.mark⟩

theorem Releasing.baseNotice (h : Releasing old r v) : Releasing old r (baseNotice old r v) := by
  by_cases same : r.rba.grants.base = old.base
  · rwa [baseNotice_unchanged same]
  unfold Machine.baseNotice
  split
  · obtain ⟨supply, mark, e⟩ := noticeBase_held (.inl h.state)
    obtain ⟨before, det⟩ := h.det
    rw [e]
    exact ⟨h.state, h.rba, h.now, h.window, ⟨mark, by rw [det]⟩, fun k => absurd k same⟩
  · exact h

theorem Releasing.refl (hs : r.bm.state = .releasing) : Releasing old r r := ⟨hs, rfl, rfl, rfl, ⟨_, rfl⟩, fun _ => rfl⟩

/-- BM in RELEASING with LSOL on: the open check, or the window where the latch already reads OPEN (R90, R91). -/
structure Opening (r v : State) : Prop where
  state : v.bm.state = .releasing
  lsol : v.det.lsol = true
  energised : v.det.energised = true
  runs :
    if r.det.lsw = .opened then
      v.det.deadline = .window ∧ v.det.timer = some (r.now + r.settings.detach.window)
    else v.det.deadline = .openCheck ∧ v.det.timer = some (r.now + 150)

theorem Opening.through (h : Opening r v) (state : u.bm.state = v.bm.state)
    (det : ∃ mark, u.det = { v.det with unpowered := mark }) : Opening r u := by
  obtain ⟨mark, det⟩ := det
  exact ⟨state.trans h.state, by rw [det]; exact h.lsol, by rw [det]; exact h.energised, by rw [det]; exact h.runs⟩

theorem Opening.baseNotice (h : Opening r v) : Opening r (baseNotice old r v) := by
  unfold Machine.baseNotice
  split
  · obtain ⟨supply, mark, e⟩ := noticeBase_held (.inl h.state)
    rw [e]
    exact h.through rfl ⟨mark, rfl⟩
  · exact h

/-- R89: a grant in GRANT_WAIT starts the open check. -/
theorem noticeAll_opens (hs : r.bm.state = .releasing) (filed : r.rba.latch.isSome = true)
    (new : r.rba.grants.latch ≠ old.latch) (waits : r.det.deadline = .grantWait) (granted : r.rba.grants.latch = 250) :
    Opening r (noticeAll old r) := by
  refine noticeAll_turns_latch (P := Releasing old r) (Q := Opening r)
    (fun _ h => ⟨h.state, h.rba, h.now, h.window, h.det, h.mark⟩) (fun _ h => h.through rfl ⟨_, rfl⟩) filed new
    (fun v h => ?_) (fun _ h => h.baseNotice) (fun _ h => h.baseNotice) (fun _ h => h.noticePen)
    (fun v h => h.through (noticePen_state v) ⟨v.det.unpowered, noticePen_det v⟩) (.refl hs)
  obtain ⟨mark, det⟩ := h.det
  have opens : noticeLatch v = openCheck v := by
    have on : latchGranted v = true := by simp [latchGranted, h.rba, filed, granted]
    have deadline : v.det.deadline = .grantWait := by rw [det, waits]
    simp only [noticeLatch, h.state, deadline, on, and_self, if_true]
  obtain ⟨lsol, energised, runs⟩ := openCheck_energised v
  rw [opens]
  refine ⟨by rw [(openCheck_kept v).1, h.state], lsol, energised, ?_⟩
  rw [det, h.now, h.window] at runs
  exact runs

theorem toPowering_latch (amount : Nat) (s : State) : (toPowering amount s).rba.latch = s.rba.latch := by
  have filed : (poweringFiled amount s).rba.latch = s.rba.latch := by
    rw [poweringFiled, fileBase_rba, bmReport_id_rba]
    rfl
  rw [toPowering_eq]
  split
  · rw [(startIdentify_changes _).rba_eq (by decide), filed]
  · exact filed

/-- What any notice for the BASE claim leaves of the attempt and the LATCH claim. -/
theorem noticeBase_attempt (s : State) :
    (noticeBase s).det.lsol = s.det.lsol ∧ (noticeBase s).det.closing = s.det.closing ∧
    (noticeBase s).det.outcome = s.det.outcome ∧
    ((noticeBase s).det.deadline = s.det.deadline ∨ (noticeBase s).det.deadline = .none) ∧
    (noticeBase s).rba.latch = s.rba.latch := by
  have stays : ∀ {v : State}, v.det = s.det → v.rba.latch = s.rba.latch →
      v.det.lsol = s.det.lsol ∧ v.det.closing = s.det.closing ∧ v.det.outcome = s.det.outcome ∧
      (v.det.deadline = s.det.deadline ∨ v.det.deadline = .none) ∧ v.rba.latch = s.rba.latch :=
    fun det latch => ⟨by rw [det], by rw [det], by rw [det], .inl (by rw [det]), latch⟩
  have identified := powerIfGranted_changes s
  have lost := lossOfPower_det s
  obtain ⟨-, -, latch⟩ := lossOfPowerAfter_records telling_id s
  unfold noticeBase
  split
  · exact stays (identified.det_eq (by decide)) (congrArg Rba.latch (identified.rba_eq (by decide)))
  · split
    · exact stays rfl rfl
    · exact stays ((toPowering_changes _ s).det_eq (by decide)) (toPowering_latch _ s)
  iterate 2
    · split
      · exact stays rfl rfl
      · exact ⟨by rw [lost]; rfl, by rw [lost]; rfl, by rw [lost]; rfl, .inr (by rw [lost]; rfl), latch⟩
  iterate 2
    · split
      · exact stays rfl rfl
      · exact ⟨rfl, rfl, rfl, .inl rfl, rfl⟩
  all_goals exact stays rfl rfl

/-- BM has closed the latch for want of power (R92): the close check runs, or the latch that read CLOSED has made NO_POWER the
outcome (R94). -/
structure Closed (old : Grants) (r v : State) : Prop where
  lsol : v.det.lsol = false
  claim : v.rba.latch = none
  opened : r.det.lsw = .opened →
    v.bm.state = .closing ∧ v.det.closing = some .noPower ∧ v.det.deadline = .closeCheck ∧ v.det.timer = some (r.now + 150)
  shut : r.det.lsw = .shut → v.det.outcome = some .noPower ∧ v.det.deadline = .none ∧ v.det.closing = none
  back : r.det.lsw = .shut → r.rba.grants.base = old.base → r.det.unpowered = false → v.bm.state = .attached

theorem Closed.noticePen (h : Closed old r v) : Closed old r (noticePen v) := by
  have det := noticePen_det v
  have state := noticePen_state v
  exact ⟨det ▸ h.lsol, by rw [noticePen_rba, h.claim], fun k => by rw [det, state]; exact h.opened k,
    fun k => by rw [det]; exact h.shut k, fun k same back => state.trans (h.back k same back)⟩

theorem Closed.baseNotice (h : Closed old r v) : Closed old r (baseNotice old r v) := by
  by_cases same : r.rba.grants.base = old.base
  · rwa [baseNotice_unchanged same]
  unfold Machine.baseNotice
  split
  · obtain ⟨lsol, closing, outcome, deadline, latch⟩ := noticeBase_attempt v
    refine ⟨lsol.trans h.lsol, latch.trans h.claim, fun k => ?_, fun k => ?_, fun _ k => absurd k same⟩
    · obtain ⟨state, rest⟩ := h.opened k
      obtain ⟨supply, mark, e⟩ := noticeBase_held (.inr state)
      rw [e]
      exact ⟨state, rest⟩
    · obtain ⟨ended, none, reason⟩ := h.shut k
      rw [none, or_self] at deadline
      exact ⟨outcome.trans ended, deadline, closing.trans reason⟩
  · exact h

/-- R92: a revocation under an energised latch closes it with NO_POWER. -/
theorem noticeAll_closes (hs : r.bm.state = .releasing) (filed : r.rba.latch.isSome = true)
    (new : r.rba.grants.latch ≠ old.latch) (lit : r.det.lsol = true) (gone : r.rba.grants.latch = 0) :
    Closed old r (noticeAll old r) := by
  refine noticeAll_turns_latch (P := Releasing old r) (Q := Closed old r)
    (fun _ h => ⟨h.state, h.rba, h.now, h.window, h.det, h.mark⟩)
    (fun _ h => ⟨h.lsol, h.claim, h.opened, h.shut, h.back⟩) filed new
    (fun v h => ?_) (fun _ h => h.baseNotice) (fun _ h => h.baseNotice) (fun _ h => h.noticePen)
    (fun _ h => h.noticePen) (.refl hs)
  obtain ⟨mark, det⟩ := h.det
  have closes : noticeLatch v = toClosing .noPower v := by
    have off : latchGranted v = false := by simp [latchGranted, h.rba, gone]
    have on : v.det.lsol = true := by rw [det, lit]
    simp only [noticeLatch, h.state, h.rba, off, on, gone, Bool.false_eq_true, and_false, if_false, and_self, if_true]
  have lsw : v.det.lsw = r.det.lsw := by rw [det]
  obtain ⟨lsol, claim, opened, back, lost⟩ := toClosing_closing (why := .noPower) (Leads.refl v) rfl rfl
  rw [lsw, h.now] at opened
  rw [lsw] at back lost
  rw [closes]
  refine ⟨lsol, claim, opened, fun k => ?_, fun k same supply => (back k ((h.mark same).trans supply)).1⟩
  cases supply : v.det.unpowered with
  | false =>
    obtain ⟨-, outcome, deadline, -, closing, -⟩ := back k supply
    exact ⟨outcome, deadline, closing⟩
  | true =>
    obtain ⟨⟨-, -, -, -, deadline, -, closing, outcome, -⟩, -⟩ := lost k supply
    exact ⟨outcome, deadline, closing⟩

end Sys2Proof.Machine

/-!
The scan (R101 to R107, R111, R115): what a completed scan records, and what a change of a band hands on, told against the
state before the scan.
-/
namespace Sys2Proof.Machine

open Sys2Proof.Claims

variable {s t u w r : State} {m : List Part} {old : Grants} {capacity : Nat} {prior : Sm}

/-! ### The bands (R104 to R106) -/

theorem supplyTarget_eq (band : Supply) (mv : Nat) : supplyTarget band mv = bandOf band mv := by
  unfold supplyTarget bandOf
  cases band with
  | critical =>
    dsimp only
    by_cases low : mv < 3300
    · rw [if_pos low, if_neg (by omega), if_neg (by omega)]
    · rw [if_neg low]
  | _ => rfl

theorem thermalTarget_eq (band : Thermal) (temp : Int) : thermalTarget band temp = heatOf band temp := by
  cases band <;> rfl

/-- R105: a target that two scans agree on becomes the band, and one that differs from the band is the candidate. -/
theorem confirm_eq {α : Type} [DecidableEq α] (target band : α) (candidate : Option α) :
    confirm target band candidate =
      (if candidate = some target then target else band,
        if target = (if candidate = some target then target else band) then none else some target) := by
  unfold confirm
  split
  · rename_i same
    simp only [same, ite_self, if_true]
  · rename_i differs
    split
    · simp only [if_true]
    · rfl

/-- SM's record after a scan: the readings and the two bands (R103). -/
def Sm.scanned (vsys : Nat) (temp : Int) (pen : Nat) (m : Sm) : Sm :=
  (({ m with scanning := false } : Sm).record vsys temp pen).evaluate vsys temp

theorem Sm.scanned_eq (vsys : Nat) (temp : Int) (pen : Nat) (m : Sm) :
    m.scanned vsys temp pen =
      { m with
        scanning := false, vsys := some vsys, temp := some temp, penCurrent := some pen
        supply := (confirm (bandOf m.supply vsys) m.supply m.supplyCandidate).1
        supplyCandidate := (confirm (bandOf m.supply vsys) m.supply m.supplyCandidate).2
        thermal := (confirm (heatOf m.thermal temp) m.thermal m.thermalCandidate).1
        thermalCandidate := (confirm (heatOf m.thermal temp) m.thermal m.thermalCandidate).2 } := by
  rw [← supplyTarget_eq, ← thermalTarget_eq]
  rfl

theorem Supply.isLow_eq (band : Supply) : Supply.isLow band = decide (band ≠ .normal) := by cases band <;> rfl

/-- SM's record but for the scan period. -/
theorem Changes.sm_eq (c : Changes m s t) (hm : ∀ p ∈ [Part.scanner, .readings, .bands], p ∉ m) :
    t.sm = { s.sm with period := t.sm.period, periodMs := t.sm.periodMs } := by
  have same : ∀ p ∈ [Part.scanner, .readings, .bands], p.Same s t := fun p hp => c.same p (hm p hp)
  simp only [List.forall_mem_cons, Part.Same, Prod.mk.injEq] at same
  cases hs : s.sm
  cases ht : t.sm
  simp_all

/-- CRITICAL is entered or left between the two records. -/
theorem criticalTurns_iff {prior : Sm} : CriticalTurns prior s ↔ (prior.supply = .critical) ≠ (s.sm.supply = .critical) := by
  rw [CriticalTurns, ne_eq, decide_eq_decide, ne_eq, eq_iff_iff]

/-! ### A completed scan (R103) -/

/-- The scan's readings are recorded and PDC has its own (R103, R135). -/
def scanRead (vsys : Nat) (temp : Int) (pen : Nat) (s : State) : State :=
  penReading pen { s with sm := ({ s.sm with scanning := false } : Sm).record vsys temp pen }

/-- Both bands are evaluated (R103). -/
def scanJudged (vsys : Nat) (temp : Int) (pen : Nat) (s : State) : State :=
  { scanRead vsys temp pen s with sm := (scanRead vsys temp pen s).sm.evaluate vsys temp }

section
variable (vsys pen : Nat) (temp : Int)

theorem scanCompleted_eq (s : State) :
    scanCompleted vsys temp pen s =
      let v := min 5000 vsys
      let k := max (-40) (min 125 temp)
      let c := min 300 pen
      let read := scanRead v k c s
      let judged := scanJudged v k c s
      if read.sm.supply = judged.sm.supply ∧ read.sm.thermal = judged.sm.thermal then judged
      else handOn read.sm v k judged := rfl

/-- PDC's own handling of its reading can choose a part mode, and with it the scan period (R102). -/
theorem scanRead_sm (s : State) :
    (scanRead vsys temp pen s).sm =
      { ({ s.sm with scanning := false } : Sm).record vsys temp pen with
        period := (scanRead vsys temp pen s).sm.period
        periodMs := (scanRead vsys temp pen s).sm.periodMs } :=
  (penReading_changes pen { s with sm := ({ s.sm with scanning := false } : Sm).record vsys temp pen }).sm_eq (by decide)

theorem scanRead_bands (s : State) :
    (scanRead vsys temp pen s).sm.supply = s.sm.supply ∧ (scanRead vsys temp pen s).sm.thermal = s.sm.thermal := by
  rw [scanRead_sm]
  exact ⟨rfl, rfl⟩

theorem scanJudged_sm (s : State) :
    (scanJudged vsys temp pen s).sm =
      { s.sm.scanned vsys temp pen with
        period := (scanRead vsys temp pen s).sm.period
        periodMs := (scanRead vsys temp pen s).sm.periodMs } := by
  change (scanRead vsys temp pen s).sm.evaluate vsys temp = _
  rw [scanRead_sm]
  rfl

theorem scanJudged_bands (s : State) :
    (scanJudged vsys temp pen s).sm.supply = (s.sm.scanned vsys temp pen).supply ∧
    (scanJudged vsys temp pen s).sm.thermal = (s.sm.scanned vsys temp pen).thermal := by
  rw [scanJudged_sm]
  exact ⟨rfl, rfl⟩

/-- R135: PDC looks at its reading in TOPOFF at 100 mA alone. -/
theorem scanJudged_idle (h : s.pdc.state ≠ .topoff ∨ s.pdc.grant ≠ 100) :
    scanJudged vsys temp pen s = { s with sm := s.sm.scanned vsys temp pen } := by
  have read : scanRead vsys temp pen s =
      { s with sm := ({ s.sm with scanning := false } : Sm).record vsys temp pen } :=
    if_neg fun topoff => h.elim (· topoff.1) (· topoff.2)
  rw [scanJudged, read]
  rfl

/-- R103: a scan that leaves both bands ends with its records. -/
theorem scanCompleted_same {vsys pen : Nat} {temp : Int}
    (supply : (s.sm.scanned (min 5000 vsys) (max (-40) (min 125 temp)) (min 300 pen)).supply = s.sm.supply)
    (thermal : (s.sm.scanned (min 5000 vsys) (max (-40) (min 125 temp)) (min 300 pen)).thermal = s.sm.thermal) :
    scanCompleted vsys temp pen s = scanJudged (min 5000 vsys) (max (-40) (min 125 temp)) (min 300 pen) s := by
  obtain ⟨judged, warmed⟩ := scanJudged_bands (min 5000 vsys) (min 300 pen) (max (-40) (min 125 temp)) s
  obtain ⟨read, heated⟩ := scanRead_bands (min 5000 vsys) (min 300 pen) (max (-40) (min 125 temp)) s
  rw [scanCompleted_eq]
  exact if_pos ⟨by rw [judged, supply, read], by rw [warmed, thermal, heated]⟩

/-- R107: a change of a band is handed on. -/
theorem scanCompleted_turns {vsys pen : Nat} {temp : Int}
    (turns : (s.sm.scanned (min 5000 vsys) (max (-40) (min 125 temp)) (min 300 pen)).supply ≠ s.sm.supply ∨
      (s.sm.scanned (min 5000 vsys) (max (-40) (min 125 temp)) (min 300 pen)).thermal ≠ s.sm.thermal) :
    scanCompleted vsys temp pen s =
      handOn (scanRead (min 5000 vsys) (max (-40) (min 125 temp)) (min 300 pen) s).sm (min 5000 vsys)
        (max (-40) (min 125 temp)) (scanJudged (min 5000 vsys) (max (-40) (min 125 temp)) (min 300 pen) s) := by
  obtain ⟨judged, warmed⟩ := scanJudged_bands (min 5000 vsys) (min 300 pen) (max (-40) (min 125 temp)) s
  obtain ⟨read, heated⟩ := scanRead_bands (min 5000 vsys) (min 300 pen) (max (-40) (min 125 temp)) s
  rw [scanCompleted_eq]
  refine if_neg fun same => ?_
  rw [judged, warmed, read, heated] at same
  exact turns.elim (· same.1.symm) (· same.2.symm)

theorem scanJudged_carried (s : State) :
    Carried { s with sm := s.sm.scanned vsys temp pen } (scanJudged vsys temp pen s) := by
  have read : Carried { s with sm := ({ s.sm with scanning := false } : Sm).record vsys temp pen }
      (scanRead vsys temp pen s) := penReading_carried pen _
  have judged : Carried (scanRead vsys temp pen s) (scanJudged vsys temp pen s) := .replaced rfl rfl rfl
  exact .after (read.trans judged) rfl rfl rfl

theorem scanJudged_rail (h : Railed False s) : Railed False (scanJudged vsys temp pen s) :=
  have read : Railed False (scanRead vsys temp pen s) := penReading_rail pen ⟨h.1, False.elim⟩
  ⟨read.1, False.elim⟩

end

/-! ### What a change of a band hands on (R107) -/

/-- What a scan may change before RBA takes the new capacity. -/
def bandParts : List Part :=
  [.reader, .display, .baseSamples, .late, .baseView, .locks, .freshness, .reported, .stream, .scanner, .scanPeriod,
    .readings, .bands, .penClaim, .grants, .polls, .charging, .spuState, .view, .triggers, .causes, .episode, .mode, .live,
    .latched, .history, .link, .queue, .btx, .choices]

theorem scanJudged_frame (vsys : Nat) (temp : Int) (pen : Nat) (s : State) :
    Changes bandParts s (scanJudged vsys temp pen s) := by
  have record : ∀ (v : State) sm, Changes bandParts v { v with sm := sm } := fun v sm => ⟨fun p hp => by
    cases p <;> first | rfl | exact absurd (by decide) hp⟩
  exact ((record s _).trans ((penReading_changes pen _).mono (by decide))).trans (record _ _)

theorem handBands_told (old : Sm) (vsys : Nat) (temp : Int) (s : State) : Told s.lc (handBands old vsys temp s).lc := by
  have reports := fun v => (reportBands_heeds old vsys temp v).told
  unfold handBands
  split
  · exact reports s
  · exact anyOrder_keeps (P := fun v => Told s.lc v.lc) (fun _ h => h)
      (fun v h => h.trans (pdcSupply_carried v).told) (fun v h => h.trans (evalTrigger_told .supply v))
      (fun v h => h.trans (reports v)) (.refl _)

/-- RBA has taken the capacity of the bands and computed the grants (R107 step 3). -/
def budgeted (s : State) : State :=
  { s with rba := ({ s.rba with capacity := capacityOf s.sm.supply s.sm.thermal } : Rba).compute }

theorem handOn_eq (old : Sm) (vsys : Nat) (temp : Int) (s : State) :
    handOn old vsys temp s =
      offerSupply (noticeAll (handBands old vsys temp s).rba.grants (budgeted (handBands old vsys temp s))) := rfl

/-- BM's records and claims in `r` are those of `s`, and RBA's table is computed over the capacity, where it held the grants
`old`. -/
structure Rebudgeted (capacity : Nat) (s r : State) (old : Grants) : Prop where
  state : r.bm.state = s.bm.state
  active : r.bm.active = s.bm.active
  det : r.det = s.det
  now : r.now = s.now
  window : r.settings.detach = s.settings.detach
  base : r.rba.base = s.rba.base
  latch : r.rba.latch = s.rba.latch
  capacity : r.rba.capacity = capacity
  table : r.rba.grants = grantTable r.rba.capacity r.rba.base r.rba.latch r.rba.pen
  told : Told s.lc r.lc
  before : s.rba.grants = grantTable s.rba.capacity s.rba.base s.rba.latch s.rba.pen →
    old.base = s.rba.grants.base ∧ old.latch = s.rba.grants.latch

/-- R114: PEN ranks last, so that its claim does not tell in the grants above it. -/
theorem Rebudgeted.grants (h : Rebudgeted capacity s r old) :
    r.rba.grants.base = (grantTable capacity s.rba.base s.rba.latch s.rba.pen).base ∧
    r.rba.grants.latch = (grantTable capacity s.rba.base s.rba.latch s.rba.pen).latch := by
  rw [h.table, h.capacity, h.base, h.latch]
  exact ⟨rfl, rfl⟩

theorem budgeted_rebudgeted (frame : Changes bandParts s w) (told : Told s.lc w.lc) (rail : Railed False s → Railed False w)
    (hcapacity : capacityOf w.sm.supply w.sm.thermal = capacity) : Rebudgeted capacity s (budgeted w) w.rba.grants := by
  have claims := frame.same .claims (by decide)
  simp only [Part.Same, Prod.mk.injEq] at claims
  obtain ⟨base, latch⟩ := claims
  have rated : w.rba.capacity = s.rba.capacity := frame.same .capacity (by decide)
  refine ⟨frame.same .bmState (by decide), frame.same .active (by decide), frame.det_eq (by decide),
    frame.same .now (by decide), frame.same .detachPolicy (by decide), base, latch, hcapacity, rfl, told, fun table => ?_⟩
  rw [(rail ⟨table, False.elim⟩).1, table, rated, base, latch]
  exact ⟨rfl, rfl⟩

theorem scan_rebudgeted (vsys : Nat) (temp : Int) (pen : Nat) (prior : Sm) (s : State) :
    Rebudgeted (capacityOf (s.sm.scanned vsys temp pen).supply (s.sm.scanned vsys temp pen).thermal) s
      (budgeted (handBands prior vsys temp (scanJudged vsys temp pen s)))
      (handBands prior vsys temp (scanJudged vsys temp pen s)).rba.grants := by
  have hands := handBands_changes prior vsys temp (scanJudged vsys temp pen s)
  obtain ⟨supply, thermal⟩ := SameBands.of_changes hands (by decide)
  obtain ⟨judged, warmed⟩ := scanJudged_bands vsys pen temp s
  have told : Told s.lc (scanJudged vsys temp pen s).lc := (scanJudged_carried vsys pen temp s).told
  exact budgeted_rebudgeted ((scanJudged_frame vsys temp pen s).step hands (by decide))
    (told.trans (handBands_told _ _ _ _)) (fun h => handBands_rail _ _ _ (scanJudged_rail vsys pen temp h))
    (by rw [supply, thermal, judged, warmed])

theorem offerSupply_told (s : State) : Told s.lc (offerSupply s).lc := offer_told _ _

/-- R115: BM's notice for its BASE claim, against the state before the scan. -/
theorem Rebudgeted.baseNoticed (h : Rebudgeted capacity s r old) :
    baseNoticed capacity s (offerSupply (noticeAll old r)) := by
  intro table c hc whole new
  obtain ⟨before, -⟩ := h.before table
  obtain ⟨grant, latch⟩ := h.grants
  have offered := offerSupply_changes (noticeAll old r)
  have bm := offered.bm_eq (by decide)
  have det := offered.det_eq (by decide)
  have rba := offered.rba_eq (by decide)
  have latched : (offerSupply (noticeAll old r)).cm.latched = (noticeAll old r).cm.latched :=
    offered.same .latched (by decide)
  rw [bm, det, rba, latched]
  have filed : r.rba.base = some c := h.base.trans hc
  rw [← grant, ← before] at new
  have short : r.rba.grants.base ≠ c.requested → r.rba.capacity < c.requested := fun short => by
    refine grantOf_whole whole ?_
    rwa [h.table, filed] at short
  rw [← grant]
  refine ⟨fun hs granted => ?_, fun hs unmet => ?_, fun hs unmet => ?_, fun hs unmet => ?_⟩
  · obtain ⟨powered, -, -⟩ := noticeAll_powers filed new (h.state.trans hs) granted
    rw [powered, h.now]
    exact ⟨rfl, rfl, rfl, rfl, rfl⟩
  · obtain ⟨⟨unpowered, -, -⟩, claim⟩ := noticeAll_unpowers filed whole new (h.state.trans hs) unmet (short unmet)
    rw [unpowered]
    exact ⟨rfl, rfl, rfl, rfl, rfl, claim⟩
  · rw [← h.state] at hs
    have lost := noticeAll_loses filed whole new hs unmet (short unmet)
    refine ⟨lost.state, lost.supply, lost.active, lost.stream, lost.deadline, by rw [lost.outcome, h.det], lost.claim,
      lost.latched, fun sending granted => ?_⟩
    have waits := lost.waits (h.told.taking ⟨sending, granted⟩)
    rw [h.active] at waits
    exact ((offerSupply_told _).waits rfl waits).queued
  · have marked := noticeAll_marks filed new (old := old) ?_ unmet
    · exact ⟨marked.state.trans h.state, marked.supply, marked.mark, marked.claim⟩
    · rw [h.state, latch, (h.before table).2]
      exact hs

/-- R115: BM's notice for its LATCH claim, against the state before the scan. -/
theorem Rebudgeted.latchNoticed (h : Rebudgeted capacity s r old) :
    latchNoticed capacity s (offerSupply (noticeAll old r)) := by
  intro table hs hc new
  obtain ⟨oldBase, before⟩ := h.before table
  obtain ⟨base, grant⟩ := h.grants
  have offered := offerSupply_changes (noticeAll old r)
  have bm := offered.bm_eq (by decide)
  have det := offered.det_eq (by decide)
  have rba := offered.rba_eq (by decide)
  rw [bm, det, rba]
  have filed : r.rba.latch.isSome = true := by rw [h.latch, hc]
  have releasing : r.bm.state = .releasing := h.state.trans hs
  rw [← grant, ← before] at new
  rw [← grant, ← base, ← oldBase, ← h.det, ← h.now, ← h.window]
  refine ⟨fun waits granted => ?_, fun lit gone => ?_⟩
  · have opening := noticeAll_opens releasing filed new waits granted
    exact ⟨opening.state, opening.lsol, opening.energised, opening.runs⟩
  · have closed := noticeAll_closes releasing filed new lit gone
    refine ⟨closed.lsol, closed.claim, closed.opened, fun shut => ?_⟩
    obtain ⟨outcome, deadline, reason⟩ := closed.shut shut
    exact ⟨outcome, deadline, reason, closed.back shut⟩

/-- R115: where no grant of BM changes, PDC's notice is the one that is left. -/
theorem noticeAll_pen (base : r.rba.grants.base = old.base) (latch : r.rba.grants.latch = old.latch) :
    noticeAll old r = noticePen r := by
  simp only [noticeAll, base, latch, ne_eq, not_true_eq_false, decide_false, Bool.and_false, Bool.false_and, Bool.or_false,
    Bool.false_eq_true, if_false, id_eq]

/-- R115, R130: PDC's notice at a change of bands that leaves CRITICAL where it was. -/
theorem handOn_penNoticed {vsys : Nat} {temp : Int} (unturned : ¬ CriticalTurns prior s)
    (hcapacity : capacityOf s.sm.supply s.sm.thermal = capacity) : penNoticed capacity s (handOn prior vsys temp s) := by
  have hands : handBands prior vsys temp s = reportBands prior vsys temp s := if_pos (not_not.mp unturned)
  have reports := reportBands_changes prior vsys temp s
  have pdc : (reportBands prior vsys temp s).pdc = s.pdc := reports.pdc_eq (by decide)
  have rba : (reportBands prior vsys temp s).rba = s.rba := reports.rba_eq (by decide)
  obtain ⟨supply, thermal⟩ := reportBands_sameBands prior vsys temp s
  have grants : (budgeted (reportBands prior vsys temp s)).rba.grants =
      grantTable capacity s.rba.base s.rba.latch s.rba.pen := by
    rw [← hcapacity, ← supply, ← thermal, ← rba]
    rfl
  refine penNoticed_of_notice (r := budgeted (reportBands prior vsys temp s)) pdc (by rw [← rba]; rfl) grants
    fun base latch => ?_
  have notices : noticeAll (reportBands prior vsys temp s).rba.grants (budgeted (reportBands prior vsys temp s)) =
      noticePen (budgeted (reportBands prior vsys temp s)) := by
    refine noticeAll_pen ?_ ?_ <;> rw [grants, rba]
    · exact base
    · exact latch
  have offered := offerSupply_changes (noticePen (budgeted (reportBands prior vsys temp s)))
  rw [handOn_eq, hands, notices]
  exact ⟨offered.pdc_eq (by decide), offered.same .penClaim (by decide)⟩

/-! ### The commands (R101, R103) -/

theorem exec_scanPeriodExpiry {d : Nat} (held : s.held = none) (h : s.sm.period = some d) :
    exec .scanPeriodExpiry s = .next (scanDue (runTo d s)) :=
  congrArg Host.Outcome.next (expiry_running (fun v => v.sm.period) scanDue held h)

theorem exec_scanPeriodExpiry_idle (held : s.held = none) (h : s.sm.period = none) : exec .scanPeriodExpiry s = .next s :=
  congrArg Host.Outcome.next (expiry_idle (fun v => v.sm.period) scanDue held h)

theorem exec_scanCompletion (vsys : Nat) (temp : Int) (pen : Nat) (held : s.held = none) :
    exec (.scanCompletion vsys temp pen) s =
      .next (if s.sm.scanning = true then scanCompleted vsys temp pen s else s) :=
  congrArg Host.Outcome.next (whileRunning_running _ held)

/-- Settles O44. The readings and bands are the scan's own (`scanJudged_sm`). What each report of a band change does stands
through the other reports and the notices (`handOn_live`, `handOn_reasons`, `handOn_evaluates`), the table is RBA's
(`handOn_railed`), and each notice does its work wherever among the three it comes (`noticeAll_turns_base`,
`noticeAll_turns_latch`). -/
theorem scanCommands : Obligations.ScanCommands := by
  intro mv temp ma s held v k target heat supply thermal sm capacity
  have scanned : s.sm.scanned v k (min 300 ma) = sm := by
    rw [Sm.scanned_eq, confirm_eq, confirm_eq]
  have completion := exec_scanCompletion mv temp ma held
  refine ⟨fun d due => exec_scanPeriodExpiry held due, exec_scanPeriodExpiry_idle held, fun off => ?_,
    fun on cold cool idle => ?_, fun on turns => ?_⟩
  · rw [completion, if_neg (by rw [off]; decide)]
  · rw [completion, if_pos on, scanCompleted_same (by rw [scanned]; exact cold) (by rw [scanned]; exact cool),
      scanJudged_idle _ _ _ idle, scanned]
  rw [if_pos on, scanCompleted_turns (by rw [scanned]; exact turns)] at completion
  refine ⟨_, completion, ?_⟩
  have carried := scanJudged_carried v (min 300 ma) k s
  have sleep : (scanJudged v k (min 300 ma) s).settings.sleep = s.settings.sleep :=
    (scanJudged_frame v k (min 300 ma) s).same .sleepPolicy (by decide)
  have idle := scanJudged_idle v (min 300 ma) k (s := s)
  have records := scanJudged_sm v (min 300 ma) k s
  obtain ⟨prior, priorWarm⟩ := scanRead_bands v (min 300 ma) k s
  have budget := scan_rebudgeted v k (min 300 ma) (scanRead v k (min 300 ma) s).sm s
  rw [scanned] at carried idle records budget
  generalize scanJudged v k (min 300 ma) s = judged at *
  generalize (scanRead v k (min 300 ma) s).sm = read at *
  have banded : judged.sm.supply = supply := by rw [records]
  have warmed : judged.sm.thermal = thermal := by rw [records]
  have handed := (handOn_changes read v k judged).sm_eq (by decide)
  have turning : CriticalTurns read judged ↔ (s.sm.supply = .critical) ≠ (supply = .critical) := by
    rw [criticalTurns_iff, prior, banded]
  obtain ⟨table, rated⟩ := (railed_iff _).mp (handOn_railed (C := True) read v k judged)
  refine ⟨?_, ?_, ?_, ?_, ?_, ?_, table, fun critical => ⟨?_, ?_⟩, fun low => ?_, fun warm => ?_, fun critical => ?_,
    fun enters before none charges => ?_, fun stays quiet => ?_, budget.baseNoticed, budget.latchNoticed⟩
  · rw [handed, records]
    exact ⟨rfl, rfl, rfl, rfl⟩
  iterate 4 rw [handed, records]
  · rw [rated, handed, records]
    rfl
  · rw [handOn_critical (turning.mpr critical), banded]
  · rw [handOn_reasons (turning.mpr critical), banded]
  · have turns : Supply.isLow read.supply ≠ Supply.isLow judged.sm.supply := by
      rw [Supply.isLow_eq, Supply.isLow_eq, prior, banded, ne_eq, decide_eq_decide, not_iff_not]
      exact fun same => low (propext same)
    rw [handOn_low turns, Supply.isLow_eq, banded]
  · rw [handOn_warm (by rwa [priorWarm, warmed]), warmed]
  · have evaluates : Evaluates { s with sm := sm } (handOn read v k judged) :=
      (handOn_evaluates (turning.mpr critical)).before carried.toHeeds ⟨banded, warmed⟩ sleep
    exact evaluates.triggerMoves
  · have quiet : s.pdc.state ≠ .topoff ∨ s.pdc.grant ≠ 100 :=
      charges.elim And.right fun waits => .inl (by rw [waits]; decide)
    obtain rfl := idle quiet
    exact handOn_suspends (turning.mpr fun same => before (same.mpr enters)) enters none (charges.imp And.left id)
  · obtain rfl := idle quiet
    have notice : penNoticed capacity { s with sm := sm } (handOn read v k { s with sm := sm }) :=
      handOn_penNoticed (fun turns => turning.mp turns stays) rfl
    exact notice

end Sys2Proof.Machine

/-!
The pen as it must stand, and the acts of PDC (R114, R129, R138).

Each act of PDC ends with its grant the one of the table and the setpoint 0 or that grant (`Metered.penned`), whatever they
were in the middle of it: a stop needs and leaves no more than `Metered`. After a new capacity the grant is stale until PDC's
notice comes, so `Penned F` asks for the grant of the table only where `F` does; and in the middle of a scan the band may
be CRITICAL before PDC has been told, so `C` asks for the reason SUPPLY.
-/
namespace Sys2Proof.Machine

open Sys2Proof.Claims

variable {F C D : Prop} {s t u : State}

/-- What a stop of the charging needs and leaves: the grants are those of R114, SUPPLY is among the reasons in CRITICAL, where
`C` asks for it, and the charge time is within its limit (R138). -/
structure Metered (C : Prop) (s : State) : Prop where
  table : Railed False s
  critical : C → s.sm.supply = .critical → bitHas s.pdc.reasons SuspendReason.supply.idx = true
  time : lawChargeTime s

/-- The pen as it must stand. PDC's grant is the one of the table where `F` asks for it. -/
structure Penned (F C : Prop) (s : State) : Prop extends Metered C s where
  grant : F → s.pdc.grant = s.rba.grants.pen
  unclaimed : s.rba.pen = none → s.pdc.grant = 0
  setpoint : s.pdc.setpoint ≤ s.pdc.grant
  idle : PdcState.charging s.pdc.state = false → s.pdc.setpoint = 0
  clear : PdcState.charging s.pdc.state = true ∨ s.pdc.state = .waitGrant → s.pdc.reasons = 0

theorem Railed.pen_unclaimed (h : Railed C s) (none : s.rba.pen = none) : s.rba.grants.pen = 0 := by
  rw [h.1, none]
  rfl

theorem penHolds_iff (s : State) : penHolds s ↔ Penned True True s := by
  constructor
  · rintro ⟨table, grant, setpoint, idle, clear, critical, time⟩
    have railed : Railed False s := ⟨table, False.elim⟩
    exact ⟨⟨railed, fun _ => critical, time⟩, fun _ => grant, fun none => grant.trans (railed.pen_unclaimed none),
      setpoint, idle, clear⟩
  · rintro ⟨⟨railed, critical, time⟩, grant, -, setpoint, idle, clear⟩
    exact ⟨railed.1, grant trivial, setpoint, idle, clear, critical trivial, time⟩

/-- R129, R138: the laws of the pen. -/
theorem Penned.laws (h : Penned True True s) : lawSetpoint s ∧ lawChargeTime s := by
  refine ⟨⟨h.grant trivial ▸ h.setpoint, h.idle, fun critical => h.idle ?_⟩, h.time⟩
  refine Bool.eq_false_iff.mpr fun charges => ?_
  exact ne_zero_of_bitHas (h.critical trivial critical) (h.clear (.inl charges))

/-- What PDC's acts come to: its grant is the one of the table, and the setpoint is 0 or, in a charging state, the grant. -/
theorem Metered.penned (h : Metered C s) (grant : s.pdc.grant = s.rba.grants.pen)
    (setpoint : s.pdc.setpoint = 0 ∨ PdcState.charging s.pdc.state = true ∧ s.pdc.setpoint = s.pdc.grant)
    (clear : PdcState.charging s.pdc.state = true ∨ s.pdc.state = .waitGrant → s.pdc.reasons = 0) : Penned F C s where
  toMetered := h
  grant _ := grant
  unclaimed none := grant.trans (h.table.pen_unclaimed none)
  setpoint := by
    rcases setpoint with off | ⟨-, full⟩
    · exact off ▸ Nat.zero_le _
    · exact full.le
  idle idles := setpoint.resolve_right fun full => by simp [idles] at full
  clear := clear

/-- Records that the pen's laws do not read are replaced. -/
theorem Penned.congr (h : Penned F C s) (rba : t.rba = s.rba) (supply : t.sm.supply = s.sm.supply)
    (record : (t.pdc.state, t.pdc.reasons, t.pdc.grant, t.pdc.setpoint, t.pdc.chargeMs, t.pdc.limitMin) =
      (s.pdc.state, s.pdc.reasons, s.pdc.grant, s.pdc.setpoint, s.pdc.chargeMs, s.pdc.limitMin)) : Penned F C t := by
  simp only [Prod.mk.injEq] at record
  obtain ⟨state, reasons, grant, setpoint, chargeMs, limitMin⟩ := record
  obtain ⟨⟨table, critical, time⟩, fresh, unclaimed, within, idle, clear⟩ := h
  refine ⟨⟨⟨by rw [rba]; exact table.1, False.elim⟩, ?_, ?_⟩, ?_, ?_, ?_, ?_, ?_⟩
  · rwa [supply, reasons]
  · rwa [lawChargeTime, state, chargeMs, limitMin]
  · rwa [grant, rba]
  · rwa [grant, rba]
  · rwa [grant, setpoint]
  · rwa [state, setpoint]
  · rwa [state, reasons]

/-- The parts that the pen's laws speak of. -/
def penLawParts : List Part := [.bands, .charging] ++ rbaParts

theorem Penned.through {m : List Part} (h : Penned F C s) (c : Changes m s t) (hm : ∀ p ∈ penLawParts, p ∉ m) :
    Penned F C t := by
  have rba : t.rba = s.rba := c.rba_eq fun p hp => hm p (List.mem_append_right _ hp)
  have bands := c.same .bands (hm _ (by decide))
  have charging := c.same .charging (hm _ (by decide))
  simp only [Part.Same, Prod.mk.injEq] at bands charging
  obtain ⟨supply, -⟩ := bands
  obtain ⟨state, -, reasons, -, grant, setpoint, -, chargeMs, -, limitMin, -⟩ := charging
  exact h.congr rba supply (by rw [state, reasons, grant, setpoint, chargeMs, limitMin])

/-! ### Entering a phase (R127 to R129) -/

/-- The answer to a filed claim decides between charging and waiting (R128). -/
theorem filed_answered (ph : ChargePhase) {claim : Claim} (h : s.rba.pen = some claim) (table : s.rba.grants.pen = s.pdc.grant) :
    let t := if s.pdc.grant = 0 then waitGrant ph s else runPhase ph s
    t.rba.pen = some claim ∧ t.pdc.grant = s.pdc.grant ∧ t.pdc.setpoint = s.pdc.grant ∧ t.rba.grants.pen = s.pdc.grant ∧
    (s.pdc.grant = 0 → t.pdc.state = .waitGrant ∧ t.pdc.remembered = some ph) ∧
    (s.pdc.grant ≠ 0 → t.pdc.state = phaseState ph ∧ t.pdc.remembered = none) := by
  dsimp only
  split <;> rename_i none
  · exact ⟨h, rfl, none.symm, table, fun _ => ⟨rfl, rfl⟩, fun some => absurd none some⟩
  · exact ⟨h, rfl, rfl, table, fun zero => absurd zero none, fun _ => ⟨rfl, rfl⟩⟩

/-- R127 to R129: the claim of a phase is filed, and its answer decides. -/
theorem enterPhase_filed (ph : ChargePhase) (s : State) :
    phaseFiled ph (phaseAmount s.settings.pen ph) s (enterPhase ph s) := by
  cases ph with
  | topoff =>
    exact filed_answered .topoff
      (s := { filePen 100 s with pdc := { (filePen 100 s).pdc with runStart := none } }) rfl rfl
  | precharge => exact filed_answered .precharge (s := filePen 40 s) rfl rfl
  | charge => exact filed_answered .charge (s := filePen s.settings.pen.maxCurrent s) rfl rfl

/-- Entering a phase leaves what is not the phase's own (R127, R128). -/
theorem enterPhase_pdc (ph : ChargePhase) (s : State) :
    (enterPhase ph s).pdc =
      { s.pdc with
        state := (enterPhase ph s).pdc.state, remembered := (enterPhase ph s).pdc.remembered
        grant := (enterPhase ph s).pdc.grant, setpoint := (enterPhase ph s).pdc.setpoint
        runStart := (enterPhase ph s).pdc.runStart, poll := (enterPhase ph s).pdc.poll } := by
  unfold enterPhase
  dsimp only
  repeat' split
  all_goals rfl

theorem phaseState_charging (ph : ChargePhase) : PdcState.charging (phaseState ph) = true := by cases ph <;> rfl

theorem phaseFiled_state {ph : ChargePhase} {amount : Nat} (h : phaseFiled ph amount s t) :
    t.pdc.state = phaseState ph ∧ t.pdc.remembered = none ∨
      t.pdc.setpoint = 0 ∧ t.pdc.state = .waitGrant ∧ t.pdc.remembered = some ph := by
  obtain ⟨-, -, setpoint, -, waits, runs⟩ := h
  by_cases none : (grantTable s.rba.capacity s.rba.base s.rba.latch (some ⟨amount, 40⟩)).pen = 0
  · exact .inr ⟨setpoint.trans none, waits none⟩
  · obtain ⟨state, remembered⟩ := runs none
    exact .inl ⟨by cases ph <;> exact state, remembered⟩

theorem enterPhase_penned (ph : ChargePhase) (h : Metered C s) (clear : s.pdc.reasons = 0) (running : s.pdc.state ≠ .fault) :
    Penned F C (enterPhase ph s) := by
  have filed := enterPhase_filed ph s
  have kept := enterPhase_pdc ph s
  have bands : SameBands s (enterPhase ph s) := .of_changes (enterPhase_changes ph s) (by decide)
  have metered : Metered C (enterPhase ph s) := by
    refine ⟨enterPhase_rail ph h.table, ?_, fun _ => ?_⟩
    · rw [bands.1, kept]
      exact h.critical
    · rw [kept]
      exact h.time running
  have phase := phaseFiled_state filed
  obtain ⟨-, grant, setpoint, table, -⟩ := filed
  refine metered.penned (grant.trans table.symm) ?_ fun _ => ?_
  · rcases phase with ⟨state, -⟩ | ⟨off, -⟩
    · exact .inr ⟨by rw [state]; exact phaseState_charging ph, setpoint.trans grant.symm⟩
    · exact .inl off
  · rw [kept]
    exact clear

/-! ### Acts that end the charging (R122, R134, R136, R139) -/

/-- PDC has stopped charging, whatever else its act has done to its record. -/
theorem Metered.stopped (h : Metered C s) (rba : t.rba = (stopCharging s).rba) (bands : SameBands s t)
    (grant : t.pdc.grant = 0) (setpoint : t.pdc.setpoint = 0)
    (idle : PdcState.charging t.pdc.state = false ∧ t.pdc.state ≠ .waitGrant)
    (reasons : bitHas t.pdc.reasons SuspendReason.supply.idx = bitHas s.pdc.reasons SuspendReason.supply.idx)
    (time : lawChargeTime t) : Penned F C t := by
  have table : Railed False t := by
    have stopped : Railed False (stopCharging s) := stopCharging_rail h.table
    exact ⟨rba ▸ stopped.1, False.elim⟩
  have claim : t.rba.pen = none := rba ▸ stopCharging_pen s
  refine Metered.penned ⟨table, ?_, time⟩ (grant.trans (table.pen_unclaimed claim).symm) (.inl setpoint) fun busy => ?_
  · rw [bands.1, reasons]
    exact h.critical
  · rcases busy with charges | waits
    · simp [charges] at idle
    · exact absurd waits idle.2

theorem suspendPen_penned (h : Metered C s) (running : s.pdc.state ≠ .fault) : Penned F C (suspendPen s) := by
  have stops := stopCharging_pdc s
  refine h.stopped rfl (.of_changes (suspendPen_changes s) (by decide)) ?_ ?_ ⟨rfl, nofun⟩ (by rw [suspendPen_reasons])
    fun _ => ?_
  · exact congrArg Pdc.grant stops
  · exact congrArg Pdc.setpoint stops
  · change (stopCharging s).pdc.chargeMs ≤ (stopCharging s).pdc.limitMin * 60000
    rw [stops]
    exact h.time running

theorem reachFull_penned (h : Metered C s) (running : s.pdc.state ≠ .fault) : Penned F C (reachFull s) := by
  have stops := stopCharging_pdc s
  refine h.stopped rfl (.of_changes (reachFull_changes s) (by decide)) ?_ ?_ ⟨rfl, nofun⟩ (by rw [reachFull_reasons])
    fun _ => ?_
  · exact congrArg Pdc.grant stops
  · exact congrArg Pdc.setpoint stops
  · change (stopCharging s).pdc.chargeMs ≤ (stopCharging s).pdc.limitMin * 60000
    rw [stops]
    exact h.time running

/-- R139: PDC's record in FAULT. -/
theorem enterFault_pdc (reason : PenFault) (s : State) :
    (enterFault reason s).pdc =
      { s.pdc with
        state := .fault, setpoint := 0, grant := 0, poll := none, response := none, outstanding := false
        fault := some reason, cycleOpen := false, remembered := none, runStart := none } := by
  unfold enterFault
  rw [(rise_changes _ _ _).pdc_eq (by decide)]
  simp only [stopCharging_pdc]

theorem enterFault_rba (reason : PenFault) (s : State) : (enterFault reason s).rba = (stopCharging s).rba :=
  (rise_changes _ _ _).rba_eq (by decide)

theorem enterFault_penned (reason : PenFault) (h : Metered C s) : Penned F C (enterFault reason s) := by
  have record := enterFault_pdc reason s
  refine h.stopped (enterFault_rba reason s) (.of_changes (enterFault_changes reason s) (by decide)) ?_ ?_ ?_ ?_ fun running => ?_
  all_goals rw [record] at *
  · exact ⟨rfl, nofun⟩
  · exact absurd rfl running

theorem fallFault_pdc (f : Option PenFault) (s : State) : (fallFault f s).pdc = s.pdc :=
  (fallFault_changes f s).pdc_eq (by decide)

/-- R122: PDC's record when the pen is gone. -/
theorem removePen_pdc (s : State) :
    (removePen s).pdc =
      { s.pdc with
        setpoint := 0, poll := none, response := none, outstanding := false, misses := 0, fault := none
        reasons := bitDrop s.pdc.reasons SuspendReason.temp.idx, last := none, remembered := none
        cycleOpen := false, chargeMs := 0, prechargeMs := 0, runStart := none, grant := 0, state := .empty } := by
  unfold removePen
  simp only [fallFault_pdc, stopCharging_pdc]

theorem removePen_rba (s : State) : (removePen s).rba = (stopCharging s).rba :=
  (fallFault_changes _ _).rba_eq (by decide)

theorem removePen_penned (h : Metered C s) : Penned F C (removePen s) := by
  have record := removePen_pdc s
  refine h.stopped (removePen_rba s) (.of_changes (removePen_changes s) (by decide)) ?_ ?_ ?_ ?_ fun _ => ?_
  all_goals rw [record]
  · exact ⟨rfl, nofun⟩
  · exact bitHas_bitDrop_ne _ (by decide)
  · exact Nat.zero_le _

/-! ### The phase choice and the suspend reasons (R127, R134) -/

theorem openCycle_running (s : State) : (openCycle s).pdc.state = s.pdc.state := by
  unfold openCycle
  split <;> rfl

theorem openCycle_metered (h : Metered C s) : Metered C (openCycle s) := by
  unfold openCycle
  split
  · exact h
  · exact ⟨⟨h.table.1, False.elim⟩, h.critical, fun _ => Nat.zero_le _⟩

theorem phaseChoice_penned (h : Penned F C s) (running : s.pdc.state ≠ .fault) : Penned F C (phaseChoice s) := by
  have metered := h.toMetered
  unfold phaseChoice
  split
  · exact h
  · split
    · exact enterFault_penned _ metered
    · split
      · exact reachFull_penned metered running
      · split
        · exact suspendPen_penned metered running
        · rename_i clear
          exact enterPhase_penned _ (openCycle_metered metered)
            ((openCycle_reasons s).trans (not_not.mp clear)) (by rwa [openCycle_running])

/-- R133, R134: a new suspend-reason set that holds SUPPLY as the bands ask. -/
theorem changeReasons_penned {new : BitVec 3} (h : Penned F D s)
    (critical : C → s.sm.supply = .critical → bitHas new SuspendReason.supply.idx = true) :
    Penned F C (changeReasons new s) := by
  have changed : Metered C { s with pdc := { s.pdc with reasons := new } } :=
    ⟨⟨h.table.1, False.elim⟩, critical, h.time⟩
  unfold changeReasons
  dsimp only
  split
  · rename_i turns
    obtain ⟨-, -, busy⟩ := turns
    exact suspendPen_penned changed fun fault => by
      change s.pdc.state = _ at fault
      simp [fault, PdcState.charging] at busy
  · rename_i keeps
    have penned : Penned F C { s with pdc := { s.pdc with reasons := new } } :=
      ⟨changed, h.grant, h.unclaimed, h.setpoint, h.idle, fun busy => by
        by_contra some
        exact keeps ⟨h.clear busy, some, busy⟩⟩
    split
    · rename_i resumes
      obtain ⟨-, -, suspended⟩ := resumes
      exact phaseChoice_penned penned fun fault => by cases suspended.symm.trans fault
    · exact penned

/-! ### Acts of PDC -/

/-- The operation keeps the pen as it must stand. -/
abbrev KeepsPen (f : State → State) : Prop := ∀ {F C s}, Penned F C s → Penned F C (f s)

theorem keepsPen_of_changes {m : List Part} {f : State → State} (c : ∀ v, Changes m v (f v))
    (hm : ∀ p ∈ penLawParts, p ∉ m) : KeepsPen f := fun h => h.through (c _) hm

theorem KeepsPen.anyOrder {f g k : State → State} (hf : KeepsPen f) (hg : KeepsPen g) (hk : KeepsPen k) :
    KeepsPen (anyOrder f g k) :=
  fun h => anyOrder_keeps (fun _ h => h.congr rfl rfl rfl) (fun _ => hf) (fun _ => hg) (fun _ => hk) h

theorem KeepsPen.raceLc {emit act : State → State} (he : KeepsPen emit) (ha : KeepsPen act) :
    KeepsPen (raceLc emit act) :=
  fun h => raceLc_keeps (fun _ h => h.congr rfl rfl rfl) (fun _ => he) (fun _ => ha) h

theorem answer_penned (place : Nat) (r : Reply) : KeepsPen (answer place r) :=
  keepsPen_of_changes (answer_changes place r) (by decide)

/-- After PDC's own act its step tells of it, and SPU takes what it says (R141, R142). -/
theorem pdcStep_reports (c : Option WakeCause) (f : State → State) (s : State) : Changes wakeParts (f s) (pdcStep c f s) := by
  have emits : ∀ (news : Bool) e v, Changes wakeParts v ((if news = true then offer e else id) v) := fun news e v => by
    cases news with
    | false => exact .refl _ v
    | true => exact (offer_changes e v).mono (by decide)
  unfold pdcStep
  dsimp only
  split
  · exact emits _ _ _
  · exact raceLc_changes (by decide) (emits _ _) (fun v => (spuPen_changes c v).mono (by decide)) _

theorem pdcStep_penned (c : Option WakeCause) {f : State → State} (h : Penned F C (f s)) : Penned F C (pdcStep c f s) :=
  h.through (pdcStep_reports c f s) (by decide)

/-- Time stops the charge times at their limits (R137, R138). -/
theorem advance_penned (d : Nat) : KeepsPen (advance d) := fun {F C s} h => by
  have elapsed : lawChargeTime (advance d s) := fun running => by
    rw [advance_pdc] at running ⊢
    have within := h.time fun fault => running (by rw [Pdc.elapse_eq]; exact fault)
    unfold Pdc.elapse
    split
    · exact max_le within (min_le_left _ _)
    · exact within
  refine ⟨⟨⟨h.table.1, False.elim⟩, ?_, elapsed⟩, ?_, ?_, ?_, ?_, ?_⟩
  all_goals rw [advance_pdc, Pdc.elapse_eq]
  · exact h.critical
  · exact h.grant
  · exact h.unclaimed
  · exact h.setpoint
  · exact h.idle
  · exact h.clear

theorem runTo_penned (d : Nat) : KeepsPen (runTo d) := advance_penned _

/-- PDC moves among the states without a pen cycle. -/
theorem Penned.entered (h : Penned F C s) (rba : t.rba = s.rba) (supply : t.sm.supply = s.sm.supply)
    (record : (t.pdc.reasons, t.pdc.grant, t.pdc.setpoint, t.pdc.chargeMs, t.pdc.limitMin) =
      (s.pdc.reasons, s.pdc.grant, s.pdc.setpoint, s.pdc.chargeMs, s.pdc.limitMin))
    (left : s.pdc.state = .empty ∨ s.pdc.state = .settling)
    (entered : t.pdc.state = .empty ∨ t.pdc.state = .settling ∨ t.pdc.state = .identifying) : Penned F C t := by
  simp only [Prod.mk.injEq] at record
  obtain ⟨reasons, grant, setpoint, chargeMs, limitMin⟩ := record
  have off : s.pdc.setpoint = 0 := h.idle (by rcases left with e | e <;> rw [e] <;> rfl)
  have time := h.time (by rcases left with e | e <;> rw [e] <;> nofun)
  refine ⟨⟨⟨by rw [rba]; exact h.table.1, False.elim⟩, ?_, fun _ => ?_⟩, ?_, ?_, ?_, fun _ => setpoint.trans off,
    fun busy => ?_⟩
  · rw [supply, reasons]
    exact h.critical
  · rwa [chargeMs, limitMin]
  · rw [grant, rba]
    exact h.grant
  · rw [grant, rba]
    exact h.unclaimed
  · rw [grant, setpoint]
    exact h.setpoint
  · rcases entered with e | e | e <;> simp [e, PdcState.charging] at busy

/-- A grant that is the one of the table is acted upon (R128, R130). -/
theorem granted_penned (ph : ChargePhase) (h : Metered C s) (grant : s.pdc.grant = s.rba.grants.pen)
    (clear : s.pdc.reasons = 0) (running : s.pdc.state ≠ .fault) :
    Penned F C (waitGrant ph s) ∧ Penned F C (runPhase ph s) := by
  have time := h.time running
  exact ⟨Metered.penned ⟨⟨h.table.1, False.elim⟩, h.critical, fun _ => time⟩ grant (.inl rfl) fun _ => clear,
    Metered.penned ⟨⟨h.table.1, False.elim⟩, h.critical, fun _ => time⟩ grant (.inr ⟨phaseState_charging ph, rfl⟩)
      fun _ => clear⟩

theorem takeNotice_penned (h : Penned F C s) : Penned D C (takeNotice s.rba.grants.pen s) := by
  have taken : Metered C { s with pdc := { s.pdc with grant := s.rba.grants.pen } } :=
    ⟨⟨h.table.1, False.elim⟩, h.critical, h.time⟩
  have idles (idle : PdcState.charging s.pdc.state = false) :
      Penned D C { s with pdc := { s.pdc with grant := s.rba.grants.pen } } :=
    taken.penned rfl (.inl (h.idle idle)) h.clear
  have acts (ph : ChargePhase) (busy : PdcState.charging s.pdc.state = true ∨ s.pdc.state = .waitGrant) :=
    granted_penned (F := D) ph taken rfl (h.clear busy) fun fault => by
      change s.pdc.state = _ at fault
      simp [fault, PdcState.charging] at busy
  unfold takeNotice
  dsimp only
  split <;> rename_i state
  iterate 3
    · obtain ⟨waits, runs⟩ := acts _ (.inl (by rw [state]; rfl))
      split
      · exact waits
      · exact runs
  · have waiting := idles (by rw [state]; rfl)
    split
    · exact waiting
    · split
      · exact (acts _ (.inr state)).2
      · exact waiting
  · refine idles ?_
    cases other : s.pdc.state <;> first | rfl | simp_all

/-- R115, R130: PDC's notice brings its grant to the one of the table. -/
theorem noticePen_penned (h : Penned F C s) : Penned D C (noticePen s) := by
  unfold noticePen
  split
  · exact pdcStep_penned none (takeNotice_penned h)
  · rename_i same
    refine { h with grant := fun _ => ?_ }
    by_contra new
    cases claim : s.rba.pen with
    | none => exact new ((h.unclaimed claim).trans (h.table.pen_unclaimed claim).symm)
    | some c => exact same ⟨by rw [claim]; rfl, Ne.symm new⟩

theorem advancePhase_penned (mv : Nat) (h : Penned F C s) (charges : PdcState.charging s.pdc.state = true) :
    Penned F C (advancePhase mv s) := by
  have enters : ∀ ph, Penned F C (enterPhase ph s) := fun ph =>
    enterPhase_penned ph h.toMetered (h.clear (.inl charges)) fun fault => by simp [fault, PdcState.charging] at charges
  unfold advancePhase
  split
  · exact enters _
  · split
    · exact enters _
    · exact h

theorem ownHandling_penned (st : PenStatus) : KeepsPen (ownHandling st) := fun h => by
  unfold ownHandling
  split <;> rename_i state
  · exact phaseChoice_penned h (by rw [state]; nofun)
  · exact advancePhase_penned _ h (by rw [state]; rfl)
  · exact advancePhase_penned _ h (by rw [state]; rfl)
  · split
    · exact phaseChoice_penned h (by rw [state]; nofun)
    · exact h
  · exact h

theorem withReason_has_ne {r q : SuspendReason} (h : r.idx ≠ q.idx) (present : Bool) (set : BitVec 3) :
    bitHas (withReason q present set) r.idx = bitHas set r.idx := by
  cases present with
  | true => exact bitHas_bitAdd_ne _ h
  | false => exact bitHas_bitDrop_ne _ h

theorem tempReasons_supply (temp : Int) (set : BitVec 3) :
    bitHas (tempReasons temp set) SuspendReason.supply.idx = bitHas set SuspendReason.supply.idx := by
  unfold tempReasons
  split
  · exact withReason_has_ne (by decide) _ _
  · split
    · exact withReason_has_ne (by decide) _ _
    · rfl

theorem takeStatus_penned (st : PenStatus) : KeepsPen (takeStatus st) := fun {F C s} h => by
  have taken : Penned F C { s with pdc := { s.pdc with last := some st } } := h.congr rfl rfl rfl
  have judged : Penned F C (changeReasons (tempReasons st.temp s.pdc.reasons) { s with pdc := { s.pdc with last := some st } }) :=
    changeReasons_penned taken fun hC critical => (tempReasons_supply _ _).trans (h.critical hC critical)
  unfold takeStatus
  dsimp only
  split
  · exact enterFault_penned _ taken.toMetered
  · split
    · exact judged
    · exact ownHandling_penned st judged

theorem endPoll_penned : KeepsPen endPoll := keepsPen_of_changes endPoll_changes (by decide)

theorem settlePen_penned (h : Penned F C s) (empty : s.pdc.state = .empty) : Penned F C (settlePen s) := by
  have settling : Penned F C { s with pdc := { s.pdc with state := .settling, settle := some (s.now + 200) } } :=
    h.entered rfl rfl rfl (.inl empty) (.inr (.inl rfl))
  exact settling.through (chooseMode_changes _) (by decide)

theorem penAfresh_penned : KeepsPen penAfresh := fun h => by
  unfold penAfresh
  split
  · rename_i afresh
    exact settlePen_penned h afresh.1
  · exact h

theorem pdetChanged_penned (level : Level) : KeepsPen (pdetChanged level) := fun {F C s} h => by
  have recorded : ∀ removal, Penned F C { s with pdc := { s.pdc with pdet := level, removal := removal } } :=
    fun _ => h.congr rfl rfl rfl
  unfold pdetChanged
  split
  · exact h
  · dsimp only
    split
    · exact settlePen_penned (recorded _) ‹s.pdc.state = .empty›
    · exact recorded _
    · have emptied : Penned F C { s with pdc := { s.pdc with pdet := .released, state := .empty, settle := none } } :=
        h.entered rfl rfl rfl (.inr ‹s.pdc.state = .settling›) (.inl rfl)
      exact emptied.through (chooseMode_changes _) (by decide)
    · exact recorded _
    · exact recorded _
    · exact recorded _

theorem penSettled_penned (h : Penned F C s) (settling : s.pdc.state = .settling) : Penned F C (penSettled s) := by
  have identifies : Penned F C (enterIdentifying { s with pdc := { s.pdc with settle := none } }) :=
    h.entered rfl rfl rfl (.inr settling) (.inr (.inr rfl))
  exact pdcStep_penned _ (identifies.through (startPoll_changes _) (by decide))

theorem penRemoved_penned : KeepsPen penRemoved := fun {F C s} h => by
  have due : Penned F C { s with pdc := { s.pdc with removal := none } } := h.congr rfl rfl rfl
  exact penAfresh_penned (pdcStep_penned _ (removePen_penned due.toMetered))

/-- R126: another pen is a removal and an insertion. -/
theorem swap_penned (h : Penned F C s) :
    Penned F C (pdcStep (some .penInserted) enterIdentifying (pdcStep (some .penRemoved) removePen s)) := by
  have removed : Penned F C (pdcStep (some .penRemoved) removePen s) := pdcStep_penned _ (removePen_penned h.toMetered)
  have empty : (pdcStep (some .penRemoved) removePen s).pdc.state = .empty := by
    rw [(pdcStep_reports _ removePen s).pdc_eq (by decide), removePen_pdc]
  exact pdcStep_penned _ (removed.entered rfl rfl rfl (.inl empty) (.inr (.inr rfl)))

theorem penStatusArrived_penned (intact : Bool) (st : PenStatus) : KeepsPen (penStatusArrived intact st) := fun {F C s} h => by
  have answered : Penned F C { s with pdc := { s.pdc with response := none, outstanding := false, misses := 0 } } :=
    h.congr rfl rfl rfl
  have endsPoll : KeepsPen (pdcStep none fun s => endPoll (takeStatus (saturateStatus st) s)) :=
    fun h => pdcStep_penned _ (endPoll_penned (takeStatus_penned _ h))
  unfold penStatusArrived handleStatus
  dsimp only
  split
  · split
    · exact endsPoll (swap_penned answered)
    · exact endsPoll answered
  · exact h

theorem pollUnanswered_penned : KeepsPen pollUnanswered := fun {F C s} h => pdcStep_penned _ <| endPoll_penned <| by
  have missed : Penned F C
      { s with pdc := { s.pdc with response := none, outstanding := false, misses := s.pdc.misses + 1 } } := h.congr rfl rfl rfl
  dsimp only
  split
  · exact enterFault_penned _ missed.toMetered
  · exact missed

theorem penReading_penned (current : Nat) : KeepsPen (penReading current) := fun {F C s} h => by
  have times : ∀ run, Penned F C { s with pdc := { s.pdc with runStart := run } } := fun _ => h.congr rfl rfl rfl
  unfold penReading
  split
  · rename_i topoff
    have full : Penned F C (reachFull s) := reachFull_penned h.toMetered (by rw [topoff.1]; nofun)
    split
    · split
      · exact times _
      · split
        · exact pdcStep_penned _ full
        · exact h
    · exact times _
  · exact h

theorem prechargeExpired_penned : KeepsPen prechargeExpired := fun h => by
  unfold prechargeExpired
  split
  · exact pdcStep_penned _ (enterFault_penned _ (advance_penned _ h).toMetered)
  · exact h

theorem safetyExpired_penned : KeepsPen safetyExpired := fun h => by
  unfold safetyExpired
  split
  · exact pdcStep_penned _ (enterFault_penned _ (advance_penned _ h).toMetered)
  · exact h

theorem replacePen_penned (p : PenSettings) : KeepsPen (replacePen p) := fun {F C s} h => pdcStep_penned _ <| by
  have replaced : Penned F C { s with settings := { s.settings with pen := p } } := h.congr rfl rfl rfl
  have judged : Penned F C (changeReasons (withReason .host (decide (p.enable = .disabled)) s.pdc.reasons)
      { s with settings := { s.settings with pen := p } }) :=
    changeReasons_penned replaced fun hC critical => (withReason_has_ne (by decide) _ _).trans (h.critical hC critical)
  dsimp only
  split
  · rename_i anew
    obtain ⟨-, busy⟩ := anew
    refine enterPhase_penned .charge judged.toMetered (judged.clear ?_) fun fault => ?_
    · exact busy.imp (fun charge => by rw [charge]; rfl) And.left
    · simp [fault] at busy
  · exact judged

/-- R133: PDC takes the supply band. -/
theorem pdcSupply_penned (h : Penned F D s) : Penned F C (pdcSupply s) :=
  pdcStep_penned _ (changeReasons_penned h fun _ critical => (withReason_has _ _ _).trans (decide_eq_true critical))

end Sys2Proof.Machine

/-!
BM's acts and a scan, as RBA and PDC see them (R107, R112 to R115).

Whatever BM does, RBA sees its claims filed and withdrawn, each time with the notice to PDC, and neither RBA nor PDC sees
the rest (`Claiming`).
-/
namespace Sys2Proof.Machine

open Sys2Proof.Claims

variable {F C D : Prop} {s t u : State}

/-! ### BM's acts, as RBA and PDC see them -/

/-- BM files and withdraws its claims, each time with the notice to PDC, and does what neither RBA nor PDC reads. -/
inductive Claiming : State → State → Prop
  | quiet {s t : State} (rba : t.rba = s.rba) (pdc : t.pdc = s.pdc) (bands : SameBands s t) : Claiming s t
  | claims {s : State} {r : Rba} (capacity : r.capacity = s.rba.capacity) (pen : r.pen = s.rba.pen) :
    Claiming s (noticePen { s with rba := r.compute })
  | trans {s t u : State} (first : Claiming s t) (next : Claiming t u) : Claiming s u

theorem Penned.claiming (h : Penned F C s) (c : Claiming s t) : Penned F C t := by
  induction c with
  | quiet rba pdc bands => exact h.congr rba bands.1 (by rw [pdc])
  | @claims s r _ pen =>
    have filed : Penned False C { s with rba := r.compute } :=
      ⟨⟨⟨rfl, False.elim⟩, h.critical, h.time⟩, False.elim, fun none => h.unclaimed (pen.symm.trans none), h.setpoint,
        h.idle, h.clear⟩
    exact noticePen_penned filed
  | trans _ _ first next => exact next (first h)

/-- The parts that neither RBA's record, nor PDC's, nor the bands are made of. -/
def railParts : List Part := .bands :: rbaParts ++ pdcParts

theorem claiming_of_changes {m : List Part} (c : Changes m s t) (hm : ∀ p ∈ railParts, p ∉ m) : Claiming s t :=
  .quiet (c.rba_eq fun p hp => hm p (List.mem_append_left _ (List.mem_cons_of_mem _ hp)))
    (c.pdc_eq fun p hp => hm p (List.mem_append_right _ hp)) (.of_changes c (hm _ (by decide)))

theorem Claiming.refl (s : State) : Claiming s s := .quiet rfl rfl (.refl s)

theorem Claiming.through {m : List Part} (h : Claiming s t) (c : Changes m t u) (hm : ∀ p ∈ railParts, p ∉ m) :
    Claiming s u :=
  h.trans (claiming_of_changes c hm)

/-- BM's own records, and the detach record, are replaced before the act. -/
theorem Claiming.after (h : Claiming t u) (rba : t.rba = s.rba) (pdc : t.pdc = s.pdc) (sm : t.sm = s.sm) : Claiming s u :=
  .trans (.quiet rba pdc (by rw [SameBands, sm]; exact ⟨rfl, rfl⟩)) h

theorem bmReport_claiming (attach : Bool) {acts : State → State} (ha : ∀ v, Changes actParts v (acts v)) (s : State) :
    Claiming s (bmReport attach acts s) := claiming_of_changes (bmReport_changes (by decide) ha s) (by decide)

theorem fileBase_claiming (amount : Nat) (s : State) : Claiming s (fileBase amount s) := .claims rfl rfl

theorem fileLatch_claiming (s : State) : Claiming s (fileLatch s) := .claims rfl rfl

theorem withdrawBase_claiming (s : State) : Claiming s (withdrawBase s) := by
  unfold withdrawBase
  split
  · exact .refl s
  · exact .claims rfl rfl

theorem withdrawLatch_claiming (s : State) : Claiming s (withdrawLatch s) := by
  unfold withdrawLatch
  split
  · exact .refl s
  · exact .claims rfl rfl

/-! ### The base (R61 to R73) -/

theorem toPowering_claiming (amount : Nat) (s : State) : Claiming s (toPowering amount s) := by
  have reported : Claiming s (bmReport false id { s with bm := s.bm.powering }) :=
    .after (bmReport_claiming false (fun v => .refl _ v) _) rfl rfl rfl
  exact (reported.trans (fileBase_claiming amount _)).through (powerIfGranted_changes _) (by decide)

theorem lossOfPowerAfter_claiming {first : State → State} (hf : Telling first) (s : State) :
    Claiming s (lossOfPowerAfter first s) := by
  have reported : Claiming s (bmReport false (outageActs first s.bm.active) (outage s)) :=
    .after (bmReport_claiming false (fun v => (outageActs_changes hf s.bm.active v).mono (by decide)) _) rfl rfl rfl
  rw [lossOfPowerAfter_eq]
  exact (reported.trans (fileBase_claiming _ _)).through (powerIfGranted_changes _) (by decide)

theorem takeIdent_claiming (i : Identity) (s : State) : Claiming s (takeIdent i s) := by
  have attaches : ∀ {v w}, Claiming v w → Claiming v (toAttached i w) := fun h =>
    h.through (toAttached_changes i _) (by decide)
  have checks : ∀ v, Claiming v (identityCheck i v) := fun v => by
    unfold identityCheck
    split
    · exact attaches (claiming_of_changes (setTable_changes _ v) (by decide))
    · split
      · exact attaches (claiming_of_changes (createEntry_changes i v) (by decide))
      · exact .after ((withdrawBase_claiming _).trans
          (bmReport_claiming false (fun v => (offer_changes _ v).mono (by decide)) _)) rfl rfl rfl
  have filed : Claiming s (identFiled i s) := .after (fileBase_claiming (drawClaim i) _) rfl rfl rfl
  unfold takeIdent
  split
  · dsimp only
    split
    · exact filed.trans (checks _)
    · exact filed.trans (toPowering_claiming _ _)
  · exact .refl s

theorem queryExpired_claiming (s : State) : Claiming s (queryExpired s) := by
  unfold queryExpired
  dsimp only
  split
  · exact .quiet rfl rfl ⟨rfl, rfl⟩
  · exact .after ((withdrawBase_claiming _).trans
      (bmReport_claiming false (fun v => (rise_changes _ _ v).mono (by decide)) _)) rfl rfl rfl
  · exact .quiet rfl rfl ⟨rfl, rfl⟩

theorem dropped_claiming (s : State) : Claiming s (dropped s) := .after (withdrawBase_claiming _) rfl rfl rfl

theorem attachAbandoned_claiming (s : State) : Claiming s (attachAbandoned s) := by
  have gone : ∀ v, Claiming v (takeAfresh (bmReport false id (dropped v))) := fun v =>
    ((dropped_claiming v).trans (bmReport_claiming false (fun w => .refl _ w) _)).through (takeAfresh_changes _) (by decide)
  unfold attachAbandoned
  dsimp only
  split
  · exact .after (gone (fall .baseIdFail s)) rfl rfl rfl
  · exact gone s

theorem baseLoss_claiming (s : State) : Claiming s (baseLoss s) :=
  ((dropped_claiming s).trans (bmReport_claiming false (fun v => (lossActs_changes _ v).mono (by decide)) _)).through
    (takeAfresh_changes _) (by decide)

theorem latchOff_claiming (s : State) : Claiming s (latchOff s) := .after (withdrawLatch_claiming _) rfl rfl rfl

theorem baseDetach_claiming (s : State) : Claiming s (baseDetach s) := by
  have gone : Claiming (unfed s) (detachedBase s) := (withdrawBase_claiming _).trans (.quiet rfl rfl ⟨rfl, rfl⟩)
  have dark : Claiming s (unfed s) := (latchOff_claiming s).trans (.quiet rfl rfl ⟨rfl, rfl⟩)
  exact ((dark.trans gone).trans (bmReport_claiming false (fun v => (detachActs_changes _ v).mono (by decide)) _)).through
    (takeAfresh_changes _) (by decide)

theorem baseIsGone_claiming (s : State) : Claiming s (baseIsGone s) := by
  unfold baseIsGone
  split
  iterate 4 exact attachAbandoned_claiming s
  iterate 2 exact baseLoss_claiming s
  iterate 2 exact baseDetach_claiming s
  iterate 2 exact .refl s

/-! ### The detach sequence (R81 to R98) -/

theorem endAttemptAfter_claiming {first : State → State} (hf : Telling first) (o : DetachOutcome) (s : State) :
    Claiming s (endAttemptAfter first o s) := by
  have telling := hf.atEnd o s.bm.active
  have begun : Claiming s (attemptOver o s).nextChoice := .quiet rfl rfl ⟨rfl, rfl⟩
  cases supply : s.det.unpowered with
  | true =>
    rcases endAttemptAfter_lost (o := o) first supply with e | e <;> rw [e]
    · exact (begun.through (telling.tells _) (by decide)).trans (lossOfPowerAfter_claiming telling_id _)
    · exact begun.trans (lossOfPowerAfter_claiming telling _)
  | false =>
    have acts : ∀ v, Changes actParts v (raceLc (tellEnd first o s.bm.active) compareStream v) :=
      raceLc_changes (by decide) (fun v => (telling.tells v).mono (by decide))
        (fun v => (compareStream_changes v).mono (by decide))
    rw [endAttemptAfter_back first supply]
    exact .after (bmReport_claiming false acts _) rfl rfl rfl

theorem endAttempt_claiming (o : DetachOutcome) (s : State) : Claiming s (endAttempt o s) :=
  endAttemptAfter_claiming telling_id o s

theorem endStuck_claiming (detail : Nat) (s : State) : Claiming s (endStuck detail s) :=
  endAttemptAfter_claiming (telling_rise _ _) _ s

theorem toClosing_claiming (why : ClosingReason) (s : State) : Claiming s (toClosing why s) := by
  have entered : Claiming s (closingEntered why s) := (latchOff_claiming s).trans (.quiet rfl rfl ⟨rfl, rfl⟩)
  have reported : Claiming s (closingReported why s) := entered.through (closingReported_frame why s) (by decide)
  rw [toClosing_eq]
  split
  · exact reported.trans (endAttempt_claiming _ _)
  · exact reported

theorem toReleasing_claiming (s : State) : Claiming s (toReleasing s) := by
  have entered : Claiming s (releasingEntered s) := .quiet rfl rfl ⟨rfl, rfl⟩
  have filed : Claiming s (releasingFiled s) :=
    (entered.through (releasingReported_frame s) (by decide)).trans (fileLatch_claiming _)
  rw [toReleasing_eq]
  split
  · exact filed.through (openCheck_changes _) (by decide)
  · exact filed

theorem giveUpLatch_claiming (o : DetachOutcome) (s : State) : Claiming s (giveUpLatch o s) :=
  (withdrawLatch_claiming s).trans (endAttempt_claiming o _)

theorem pressAttached_claiming (s : State) : Claiming s (pressAttached s) := by
  have begun : Claiming s (standingBegun s) := .quiet rfl rfl ⟨rfl, rfl⟩
  unfold pressAttached
  dsimp only
  split
  · exact .refl s
  · split
    · exact claiming_of_changes (askConsent_changes s) (by decide)
    · split
      · exact begun.trans (toReleasing_claiming _)
      · exact begun.through (standingRefusal_changes _) (by decide)

theorem bmPress_claiming (s : State) : Claiming s (bmPress s) := by
  unfold bmPress
  split
  · exact pressAttached_claiming s
  · exact endAttempt_claiming _ s
  · unfold pressReleasing
    split
    · exact toClosing_claiming _ s
    · exact giveUpLatch_claiming _ s
  all_goals exact .refl s

theorem buttonHeld_claiming (s : State) : Claiming s (buttonHeld s) := by
  have held : ∀ d, Claiming s { s with det := d } := fun _ => .quiet rfl rfl ⟨rfl, rfl⟩
  unfold buttonHeld
  dsimp only
  split
  · exact ((held _).through (cause_changes _ _) (by decide)).trans (bmPress_claiming _)
  · exact held _

theorem consentExpired_claiming (s : State) : Claiming s (consentExpired s) := by
  unfold consentExpired
  split
  · exact endAttempt_claiming _ s
  · exact toReleasing_claiming s

theorem bmLid_claiming (level : Level) (s : State) : Claiming s (bmLid level s) := by
  unfold bmLid
  split
  · exact endAttempt_claiming _ s
  · exact .refl s

theorem nextChoice_claiming (s : State) : Claiming s s.nextChoice := .quiet rfl rfl ⟨rfl, rfl⟩

theorem anyOrder_claiming {f g k : State → State} (hf : ∀ v, Claiming v (f v)) (hg : ∀ v, Claiming v (g v))
    (hk : ∀ v, Claiming v (k v)) (s : State) : Claiming s (anyOrder f g k s) :=
  anyOrder_keeps (P := Claiming s) (fun v h => h.trans (nextChoice_claiming v)) (fun v h => h.trans (hf v))
    (fun v h => h.trans (hg v)) (fun v h => h.trans (hk v)) (.refl s)

theorem lidReported_claiming (level : Level) (s : State) : Claiming s (lidReported level s) := by
  have pe : ∀ v, Claiming v (peForcing v) := fun v => claiming_of_changes (peForcing_changes v) (by decide)
  have spu : ∀ v, Claiming v (spuLid level v) := fun v => claiming_of_changes (spuLid_changes level v) (by decide)
  unfold lidReported
  split
  · exact anyOrder_claiming pe spu (bmLid_claiming level) s
  · split
    · exact (nextChoice_claiming s).trans
        (eitherOrder_holds (P := Claiming s.nextChoice) ((pe _).trans (spu _)) ((spu _).trans (pe _)))
    · exact (pe s).trans (spu _)

theorem magnetHeld_claiming (m : Magnet) (s : State) : Claiming s (magnetHeld m s) := by
  have debounced : ∀ f, Claiming s { s with sfe := f } := fun _ => .quiet rfl rfl ⟨rfl, rfl⟩
  unfold magnetHeld
  dsimp only
  split
  · exact ((debounced _).through (breakBoth_changes _) (by decide)).trans (lidReported_claiming _ _)
  · exact (debounced _).trans (lidReported_claiming _ _)
  · exact debounced _

theorem lswChanged_claiming (pos : LatchPos) (s : State) : Claiming s (lswChanged pos s) := by
  have recorded : Claiming s (lswRecorded pos s) := .quiet rfl rfl ⟨rfl, rfl⟩
  unfold lswChanged
  dsimp only
  split
  · split
    · exact recorded.through (startWindow_changes _) (by decide)
    · exact recorded
  · split
    · exact recorded.trans (endAttempt_claiming _ _)
    · exact recorded

theorem answer_claiming (place : Nat) (r : Reply) (s : State) : Claiming s (answer place r s) :=
  claiming_of_changes (answer_changes place r s) (by decide)

theorem consentAllowed_claiming (place : Nat) (s : State) : Claiming s (consentAllowed place s) :=
  (answer_claiming place _ s).trans (toReleasing_claiming _)

theorem serveDetachConsent_claiming (place : Nat) (payload : List Byte) (s : State) :
    Claiming s (serveDetachConsent place payload s) := by
  unfold serveDetachConsent
  split
  · split
    · exact answer_claiming _ _ s
    · split
      · split
        · exact consentAllowed_claiming place s
        · exact (answer_claiming _ _ s).trans (endAttempt_claiming _ _)
      · exact answer_claiming _ _ s
  · exact answer_claiming _ _ s

theorem serveRequestDetach_claiming (place : Nat) (s : State) : Claiming s (serveRequestDetach place s) := by
  have begun : Claiming s (detachRequested s) := .quiet rfl rfl ⟨rfl, rfl⟩
  unfold serveRequestDetach
  split
  · split
    · exact answer_claiming _ _ s
    · exact (begun.trans (answer_claiming _ _ _)).trans (toReleasing_claiming _)
  · exact consentAllowed_claiming place s
  · exact answer_claiming _ _ s

theorem serveAcceptBase_claiming (place : Nat) (s : State) : Claiming s (serveAcceptBase place s) := by
  unfold serveAcceptBase
  split
  · exact ((claiming_of_changes (createEntry_changes _ s) (by decide)).trans (answer_claiming _ _ _)).trans
      (toPowering_claiming _ _)
  · exact answer_claiming _ _ s

/-! ### Notices to BM (R115) -/

theorem noticeBase_claiming (s : State) : Claiming s (noticeBase s) := by
  unfold noticeBase
  split
  · exact claiming_of_changes (powerIfGranted_changes s) (by decide)
  · split
    · exact .refl s
    · exact toPowering_claiming _ s
  iterate 2
    · split
      · exact .refl s
      · exact lossOfPowerAfter_claiming telling_id s
  iterate 2
    · split
      · exact .refl s
      · exact .quiet rfl rfl ⟨rfl, rfl⟩
  all_goals exact .refl s

theorem noticeLatch_claiming (s : State) : Claiming s (noticeLatch s) := by
  unfold noticeLatch
  split
  · split
    · exact claiming_of_changes (openCheck_changes s) (by decide)
    · split
      · exact toClosing_claiming _ s
      · exact .refl s
  · exact .refl s

/-! ### A scan (R107) -/

/-- Among the notices is PDC's, after which its grant is the one of the table. -/
theorem noticeAll_penned (old : Grants) (h : Penned F C s) : Penned D C (noticeAll old s) := by
  have base : ∀ {E v}, Penned E C v → Penned E C (baseNotice old s v) := fun {_ v} hv => by
    unfold baseNotice
    split
    · exact hv.claiming (noticeBase_claiming v)
    · exact hv
  have latch : ∀ {E v}, Penned E C v → Penned E C (latchNotice old s v) := fun {_ v} hv => by
    unfold latchNotice
    split
    · exact hv.claiming (noticeLatch_claiming v)
    · exact hv
  have choice : ∀ {E v}, Penned E C v → Penned E C v.nextChoice := fun hv => hv.claiming (nextChoice_claiming _)
  rcases noticeAll_cases old s with e | e <;> rw [e]
  · exact anyOrder_turns_last (P := Penned F C) (Q := Penned D C) (fun _ => choice) (fun _ => choice)
      (fun _ => noticePen_penned) (fun _ => base) (fun _ => base) (fun _ => latch) (fun _ => latch) h
  · exact noticePen_penned (latch (base h))

theorem handBands_penned (old : Sm) (vsys : Nat) (temp : Int) (h : Penned F (C ∧ ¬ CriticalTurns old s) s) :
    Penned F C (handBands old vsys temp s) := by
  by_cases turns : CriticalTurns old s
  · have spu : ∀ {E v}, Penned F E v → Penned F E (spuSupply v) := fun hv =>
      hv.through (spuSupply_changes _) (by decide)
    have reports : ∀ {E v}, Penned F E v → Penned F E (reportBands old vsys temp v) := fun hv =>
      hv.through (reportBands_changes old vsys temp _) (by decide)
    have choice : ∀ {E v}, Penned F E v → Penned F E v.nextChoice := fun hv => hv.claiming (nextChoice_claiming _)
    rw [handBands_turning turns]
    exact anyOrder_turns (P := Penned F (C ∧ ¬ CriticalTurns old s)) (Q := Penned F C) (fun _ => choice) (fun _ => choice)
      (fun _ => pdcSupply_penned) (fun _ => spu) (fun _ => spu) (fun _ => reports) (fun _ => reports) h
  · rw [show handBands old vsys temp s = reportBands old vsys temp s from if_pos (not_not.mp turns)]
    have stands : Penned F C s := { h with critical := fun hC => h.critical ⟨hC, turns⟩ }
    exact stands.through (reportBands_changes old vsys temp s) (by decide)

theorem handOn_penned (old : Sm) (vsys : Nat) (temp : Int) (h : Penned F (C ∧ ¬ CriticalTurns old s) s) :
    Penned D C (handOn old vsys temp s) := by
  have handed : Penned False C (budgeted (handBands old vsys temp s)) := by
    have h := handBands_penned old vsys temp h
    exact ⟨⟨⟨rfl, False.elim⟩, h.critical, h.time⟩, False.elim, h.unclaimed, h.setpoint, h.idle, h.clear⟩
  rw [handOn_eq]
  exact (noticeAll_penned _ handed).through (offerSupply_changes _) (by decide)

theorem scanCompleted_penned (vsys : Nat) (temp : Int) (pen : Nat) : KeepsPen (scanCompleted vsys temp pen) :=
  fun {F C s} h => by
  have read : ∀ v t c, Penned F C (penReading c { s with sm := ({ s.sm with scanning := false } : Sm).record v t c }) :=
    fun v t c => penReading_penned c (h.congr rfl rfl rfl)
  unfold scanCompleted
  dsimp only
  split
  · rename_i same
    exact (read _ _ _).congr rfl same.1.symm rfl
  · refine handOn_penned (F := F) _ _ _ ⟨⟨⟨(read _ _ _).table.1, False.elim⟩, fun stays critical => ?_,
      (read _ _ _).time⟩, (read _ _ _).grant, (read _ _ _).unclaimed, (read _ _ _).setpoint, (read _ _ _).idle, (read _ _ _).clear⟩
    obtain ⟨hC, unturned⟩ := stays
    exact (read _ _ _).critical hC ((decide_eq_decide.mp (not_not.mp unturned)).mpr critical)

end Sys2Proof.Machine

/-!
The pen after every step (R129, R138).
-/
namespace Sys2Proof.Machine

open Sys2Proof.Claims

variable {F C D : Prop} {s t u : State}

/-! ### Requests and the link -/

theorem serveSetPenCharging_penned (place : Nat) (payload : List Byte) : KeepsPen (serveSetPenCharging place payload) :=
  fun h => by
  unfold serveSetPenCharging
  split
  · exact answer_penned _ _ h
  · exact KeepsPen.raceLc (answer_penned _ _) (replacePen_penned _) h

theorem restoreOwners_penned : KeepsPen restoreOwners := fun h => by
  have tuning : KeepsPen (replaceTuning defaultTuning) := keepsPen_of_changes (replaceTuning_changes _) (by decide)
  have sleep : KeepsPen restoreSleep := keepsPen_of_changes restoreSleep_changes (by decide)
  unfold restoreOwners
  dsimp only
  split
  · exact KeepsPen.anyOrder tuning sleep (replacePen_penned _) h
  · exact replacePen_penned _ (sleep (tuning h))

theorem serveRestoreDefaults_penned (place : Nat) : KeepsPen (serveRestoreDefaults place) := fun h =>
  answer_penned _ _ (((restoreOwners_penned h).through (restorePolicies_changes _) (by decide)).through
    (requestCommit_changes _) (by decide))

/-- Two requests reach PDC's charging itself, three BM's claims; an owner's service of any other leaves the pen. -/
theorem serve_penned (place : Nat) (kind : ReqKind) (payload : List Byte) : KeepsPen (serve place kind payload) :=
  fun h => by
  cases kind with
  | setPenCharging => exact serveSetPenCharging_penned _ _ h
  | restoreDefaults => exact serveRestoreDefaults_penned _ h
  | acceptBase => exact h.claiming (serveAcceptBase_claiming _ _)
  | requestDetach => exact h.claiming (serveRequestDetach_claiming _ _)
  | detachConsent => exact h.claiming (serveDetachConsent_claiming _ _ _)
  | identify => exact h.through (serveIdentify_changes _ _) (by decide)
  | subscribe => exact h.through (serveSubscribe_changes _ _ _) (by decide)
  | unsubscribe => exact h.through (serveUnsubscribe_changes _ _ _) (by decide)
  | resetPart => exact h.through (serveResetPart_changes _ _) (by decide)
  | getPosture => exact h.through (serveGetPosture_changes _ _) (by decide)
  | getVectors => exact h.through (serveGetVectors_changes _ _) (by decide)
  | setRotationLock => exact h.through (serveSetRotationLock_changes _ _ _) (by decide)
  | setTuning => exact h.through (serveSetTuning_changes _ _ _) (by decide)
  | calibrateHinge => exact h.through (serveCalibrateHinge_changes _ _ _) (by decide)
  | listBases => exact h.through (serveListBases_changes _ _) (by decide)
  | forgetBase => exact h.through (serveForgetBase_changes _ _ _) (by decide)
  | setBaseOffset => exact h.through (serveSetBaseOffset_changes _ _ _) (by decide)
  | setBasePolicy => exact h.through (serveSetBasePolicy_changes _ _ _) (by decide)
  | setDetachPolicy => exact h.through (serveSetDetachPolicy_changes _ _ _) (by decide)
  | getSupply => exact h.through (serveGetSupply_changes _ _) (by decide)
  | getPen => exact h.through (serveGetPen_changes _ _) (by decide)
  | hostState => exact h.through (serveHostState_changes _ _ _) (by decide)
  | getSleep => exact h.through (serveGetSleep_changes _ _) (by decide)
  | setSleepPolicy => exact h.through (serveSetSleepPolicy_changes _ _ _) (by decide)
  | setWakeCauses => exact h.through (serveSetWakeCauses_changes _ _ _) (by decide)
  | getConditions => exact h.through (serveGetConditions_changes _ _) (by decide)
  | getHistory => exact h.through (serveGetHistory_changes _ _ _) (by decide)
  | clearConditions => exact h.through (serveClearConditions_changes _ _ _) (by decide)
  | saveSettings => exact h.through (serveSaveSettings_changes _ _) (by decide)

/-- LC's record is replaced. -/
theorem Penned.link (h : Penned F C s) (lc : Lc) : Penned F C { s with lc := lc } := h.congr rfl rfl rfl

theorem handWaiting_penned (n : Nat) : KeepsPen (handWaiting n) := by
  induction n with
  | zero => exact fun h => h
  | succ n ih =>
    intro F C s h
    unfold handWaiting
    split
    · exact ih (serve_penned _ _ _ (h.link _))
    · exact h

theorem goodFrame_penned (kind : Nat) (tag : Byte) (payload : List Byte) : KeepsPen (goodFrame kind tag payload) :=
  fun {F C s} h => by
  have refused : ∀ item lc, Penned F C (refuse item { s with lc := lc }) := fun item lc =>
    (h.link lc).through (refuse_changes item _) (by decide)
  unfold goodFrame
  dsimp only
  split
  · exact refused _ _
  · split
    · exact refused _ _
    · split
      · exact refused _ _
      · unfold accept
        dsimp only
        split
        · exact serve_penned _ _ _ (h.link _)
        · exact h.link _

theorem rxByte_penned (b : Byte) : KeepsPen (rxByte b) := fun h => by
  unfold rxByte
  split
  · exact h.link _
  · exact h.link _
  · exact h.link _
  · split
    · unfold bodyFrame
      split
      · exact goodFrame_penned _ _ _ h
      · exact h.through (badFrame_changes _) (by decide)
    · exact h.through (badFrame_changes _) (by decide)

/-! ### Resets (R119, R144) -/

/-- A reset leaves no claim, no charge time and the band NORMAL, and PDC in EMPTY or SETTLING. -/
theorem Penned.of_reset (rba : s.rba = Rba.reset) (supply : s.sm.supply = .normal)
    (record : (s.pdc.grant, s.pdc.setpoint, s.pdc.chargeMs) = (0, 0, 0))
    (state : s.pdc.state = .empty ∨ s.pdc.state = .settling) : Penned F C s := by
  simp only [Prod.mk.injEq] at record
  obtain ⟨grant, setpoint, chargeMs⟩ := record
  refine Metered.penned ⟨⟨by rw [rba]; rfl, False.elim⟩, fun _ critical => ?_, fun _ => ?_⟩ ?_ (.inl setpoint)
    fun busy => ?_
  · cases supply.symm.trans critical
  · rw [chargeMs]
    exact Nat.zero_le _
  · rw [grant, rba]
    rfl
  · rcases state with e | e <;> simp [e, PdcState.charging] at busy

theorem holdReset_penned (kind : ResetKind) (s : State) : Penned F C (holdReset kind s) :=
  .of_reset rfl rfl rfl (.inl rfl)

theorem endReset_penned (kind : ResetKind) (s : State) : Penned F C (endReset kind s) := by
  have starts : ∀ corrupt, KeepsPen (startBlocks corrupt) := fun corrupt =>
    keepsPen_of_changes (startBlocks_changes corrupt) (by decide)
  refine starts _ (.of_reset rfl rfl ?_ ?_)
  · cases s.pdc.pdet <;> rfl
  · cases pdet : s.pdc.pdet with
    | asserted => exact .inr rfl
    | released => exact .inl rfl

theorem beginReset_penned (kind : ResetKind) (s : State) : Penned F C (beginReset kind s) := by
  unfold beginReset
  split
  · exact holdReset_penned kind s
  · exact endReset_penned kind s

theorem softReset_penned (s : State) : Penned F C (softReset s) := by
  unfold softReset
  split
  · exact holdReset_penned _ _
  · split
    · exact endReset_penned _ _
    · exact holdReset_penned _ _

theorem assertReset_penned : KeepsPen assertReset := fun h => by
  unfold assertReset
  split
  · exact h
  · exact holdReset_penned _ _
  · split <;> exact holdReset_penned _ _

theorem releaseReset_penned : KeepsPen releaseReset := fun h => by
  unfold releaseReset
  split
  · exact endReset_penned _ _
  · exact h.congr rfl rfl rfl

theorem frameSent_penned : KeepsPen frameSent := fun {F C s} h => by
  have next : ∀ lc, Penned F C (afterFrame { s with lc := lc }) := fun lc =>
    (handWaiting_penned 4 (h.link lc)).through (kick_changes _) (by decide)
  unfold frameSent
  split
  · exact h
  · dsimp only
    split
    · exact softReset_penned _
    · exact next _
  · exact next _
  · exact next _

/-! ### Commands -/

theorem whileRunning_penned {f : State → State} (hf : KeepsPen f) : KeepsPen (whileRunning f) := fun h => by
  unfold whileRunning
  split
  · exact hf h
  · exact h
  · exact hf (endReset_penned _ _)

theorem onInput_penned {record f : State → State} (hr : KeepsPen record) (hf : KeepsPen f) :
    KeepsPen (onInput record f) := fun {F C s} h => by
  rcases onInput_cases record f s with ⟨-, e⟩ | ⟨k, -, -, e⟩ | ⟨k, -, -, e | e⟩ <;> rw [e]
  · exact hf h
  · exact hr h
  · exact hr (h.claiming (nextChoice_claiming s))
  · exact hf (endReset_penned _ _)

theorem onExpiry_penned {f : State → State} (timer : Timer) (hf : KeepsPen f) : KeepsPen (onExpiry timer f) := fun h => by
  unfold onExpiry
  split
  · exact h
  · exact hf (runTo_penned _ h)

theorem onEnd_penned {f : State → State} (inFlight : Bool) (hf : KeepsPen f) : KeepsPen (onEnd inFlight f) := fun h => by
  unfold onEnd
  split
  · exact hf h
  · exact h

theorem runTo_pdcState (d : Nat) (s : State) : (runTo d s).pdc.state = s.pdc.state := by
  rw [runTo_pdc, Pdc.elapse_eq]

theorem settleExpiry_penned :
    KeepsPen fun u => onExpiry (whenIn (decide (u.pdc.state = .settling)) u.pdc.settle) penSettled u := fun {F C s} h => by
  by_cases settling : s.pdc.state = .settling
  · cases due : s.pdc.settle with
    | none =>
      dsimp only
      rw [onExpiry_none _ _ ((whenIn_here _ (decide_eq_true settling)).trans due)]
      exact h
    | some d =>
      dsimp only
      rw [onExpiry_some _ _ ((whenIn_here _ (decide_eq_true settling)).trans due)]
      exact penSettled_penned (runTo_penned d h) ((runTo_pdcState d s).trans settling)
  · dsimp only
    rw [onExpiry_none _ _ (whenIn_elsewhere _ (decide_eq_false settling))]
    exact h

theorem pdetRecorded_penned (level : Level) : KeepsPen fun s => { s with pdc := { s.pdc with pdet := level } } :=
  fun h => h.congr rfl rfl rfl

theorem baseGone_claiming (s : State) : Claiming s (baseIsGone { s with bm := { s.bm with loss := none } }) :=
  .after (baseIsGone_claiming _) rfl rfl rfl

theorem exec_penned (c : Instr) (h : Penned F C s) : ∃ t, exec c s = .next t ∧ Penned F C t := by
  have run : ∀ {f}, KeepsPen f → Penned F C (whileRunning f s) := fun hf => whileRunning_penned hf h
  have leaves : ∀ {m : List Part} {f : State → State}, (∀ v, Changes m v (f v)) →
      (∀ p ∈ penLawParts, p ∉ m) → KeepsPen f := keepsPen_of_changes
  have claims : ∀ {f : State → State}, (∀ v, Claiming v (f v)) → KeepsPen f := fun c _ _ _ hu => hu.claiming (c _)
  have expiry : ∀ {f} (timer : State → Timer), KeepsPen f → Penned F C (whileRunning (fun u => onExpiry (timer u) f u) s) :=
    fun timer hf => run fun hu => onExpiry_penned (timer _) hf hu
  have ends : ∀ {f} (inFlight : State → Bool), KeepsPen f → Penned F C (whileRunning (fun u => onEnd (inFlight u) f u) s) :=
    fun inFlight hf => run fun hu => onEnd_penned (inFlight _) hf hu
  have pin : ∀ {record f : State → State}, (∀ v, Claiming v (record v)) → KeepsPen f →
      Penned F C (onInput record f s) :=
    fun hr hf => onInput_penned (claims hr) hf h
  have request : ∀ kind tag payload, Penned F C (whileRunning (request kind tag payload) s) :=
    fun _ _ _ => run (goodFrame_penned _ _ _)
  cases c with
  | powerOn => exact ⟨_, rfl, beginReset_penned _ _⟩
  | brownout => exact ⟨_, rfl, beginReset_penned _ _⟩
  | nrstAsserted => exact ⟨_, rfl, assertReset_penned h⟩
  | nrstReleased => exact ⟨_, rfl, releaseReset_penned h⟩
  | displayPeriodExpiry => exact ⟨_, rfl, expiry _ (leaves readDue_changes (by decide))⟩
  | displayReadSample x y z => exact ⟨_, rfl, ends _ (leaves (readSampled_changes _) (by decide))⟩
  | displayReadFailure cause => exact ⟨_, rfl, ends _ (leaves (readFailed_changes _) (by decide))⟩
  | displayReadTimeout =>
    exact ⟨_, rfl, run fun hu => onEnd_penned _ (onExpiry_penned _ (leaves (readFailed_changes 3) (by decide))) hu⟩
  | magnetLevelChange magnet level =>
    exact ⟨_, rfl, pin (fun _ => .quiet rfl rfl ⟨rfl, rfl⟩) (leaves (magnetChanged_changes _ _) (by decide))⟩
  | hallDebounceExpiry magnet => exact ⟨_, rfl, expiry _ (claims (magnetHeld_claiming _))⟩
  | bpresChange level =>
    exact ⟨_, rfl, pin (fun _ => .quiet rfl rfl ⟨rfl, rfl⟩) (leaves (bpresChanged_changes _) (by decide))⟩
  | baseSettleTimerExpiry => exact ⟨_, rfl, expiry _ (claims (toPowering_claiming 120))⟩
  | baseGone =>
    exact ⟨_, rfl, expiry _ (claims baseGone_claiming)⟩
  | queryTimerExpiry => exact ⟨_, rfl, expiry _ (claims queryExpired_claiming)⟩
  | cyclingTimerExpiry => exact ⟨_, rfl, expiry _ (leaves cyclingExpired_changes (by decide))⟩
  | ident serial model draw revision => exact ⟨_, rfl, run (claims (takeIdent_claiming _))⟩
  | baseSample x y z => exact ⟨_, rfl, run (leaves (baseSampleArrived_changes _) (by decide))⟩
  | quiesced => exact ⟨_, rfl, run (leaves streamPaused_changes (by decide))⟩
  | quiesceTimerExpiry => exact ⟨_, rfl, expiry _ (leaves streamPaused_changes (by decide))⟩
  | baseLinkRecordDiscard => exact ⟨_, rfl, h⟩
  | dbtnChange level =>
    exact ⟨_, rfl, pin (fun _ => .quiet rfl rfl ⟨rfl, rfl⟩) (leaves (dbtnChanged_changes _) (by decide))⟩
  | buttonHoldExpiry => exact ⟨_, rfl, expiry _ (claims buttonHeld_claiming)⟩
  | consentTimerExpiry => exact ⟨_, rfl, expiry _ (claims consentExpired_claiming)⟩
  | grantWaitExpiry => exact ⟨_, rfl, expiry _ (claims (giveUpLatch_claiming _))⟩
  | lswChange pos => exact ⟨_, rfl, pin (fun _ => .quiet rfl rfl ⟨rfl, rfl⟩) (claims (lswChanged_claiming _))⟩
  | openCheckExpiry =>
    exact ⟨_, rfl, expiry _ (claims fun u => (latchOff_claiming u).trans (endStuck_claiming 1 _))⟩
  | releaseWindowExpiry => exact ⟨_, rfl, expiry _ (claims (toClosing_claiming _))⟩
  | closeCheckExpiry => exact ⟨_, rfl, expiry _ (claims (endStuck_claiming 2))⟩
  | blinkTimerExpiry => exact ⟨_, rfl, expiry _ (leaves blinkEnded_changes (by decide))⟩
  | scanPeriodExpiry => exact ⟨_, rfl, expiry _ (leaves scanDue_changes (by decide))⟩
  | scanCompletion vsys temp pen => exact ⟨_, rfl, ends _ (scanCompleted_penned _ _ _)⟩
  | pdetChange level => exact ⟨_, rfl, onInput_penned (pdetRecorded_penned level) (pdetChanged_penned level) h⟩
  | penSettleTimerExpiry => exact ⟨_, rfl, run settleExpiry_penned⟩
  | penRemoval => exact ⟨_, rfl, expiry _ penRemoved_penned⟩
  | pollTimerExpiry => exact ⟨_, rfl, expiry _ (leaves startPoll_changes (by decide))⟩
  | responseTimerExpiry => exact ⟨_, rfl, expiry _ pollUnanswered_penned⟩
  | penStatus intact status => exact ⟨_, rfl, run (penStatusArrived_penned _ _)⟩
  | prechargeTimerExpiry => exact ⟨_, rfl, run prechargeExpired_penned⟩
  | safetyTimerExpiry => exact ⟨_, rfl, run safetyExpired_penned⟩
  | triggerTimerExpiry trigger => exact ⟨_, rfl, expiry _ (leaves (mature_changes _) (by decide))⟩
  | lidConfirmTimerExpiry => exact ⟨_, rfl, expiry _ (leaves lidConfirmed_changes (by decide))⟩
  | wakeTimerExpiry => exact ⟨_, rfl, expiry _ (leaves wakeExpired_changes (by decide))⟩
  | gapTimerExpiry => exact ⟨_, rfl, expiry _ (leaves nextAttempt_changes (by decide))⟩
  | uptimeTick => exact ⟨_, rfl, expiry (fun u => some u.nextSecond) (leaves tickUptime_changes (by decide))⟩
  | lengthByteAbandon byte => exact ⟨_, rfl, run (leaves (lengthAbandon_changes _) (by decide))⟩
  | rxGapTimeout => exact ⟨_, rfl, expiry _ (leaves gapExpired_changes (by decide))⟩
  | frameReject => exact ⟨_, rfl, run (leaves badFrame_changes (by decide))⟩
  | unknownKindFrame kind tag payload => exact ⟨_, rfl, run (goodFrame_penned _ _ _)⟩
  | txFrameDone => exact ⟨_, rfl, run frameSent_penned⟩
  | commitWriteDone faulty => exact ⟨_, rfl, run (leaves (writeDone_changes _) (by decide))⟩
  | commitVerifyDone => exact ⟨_, rfl, run (leaves verifyDone_changes (by decide))⟩
  | rxdByte byte => exact ⟨_, rfl, run (rxByte_penned _)⟩
  | _ => exact ⟨_, rfl, request _ _ _⟩

theorem step_penned (h : Penned F C s) (e : step s = .next t) : Penned F C t := by
  unfold step at e
  split at e
  · cases e
    exact whileRunning_penned (advance_penned 1) h
  · rename_i c rest _
    have dequeued : Penned F C { s with pending := rest } := h.congr rfl rfl rfl
    obtain ⟨u, hexec, hu⟩ := exec_penned c dequeued
    cases hexec.symm.trans e
    exact hu

/-- Settles O50: every act of PDC ends with its grant the one of the table and the setpoint within it (`Metered.penned`),
every claim of BM and every new capacity is followed by PDC's notice (`Penned.claiming`, `noticeAll_penned`), and
`exec_penned` puts the commands together. -/
theorem stepKeepsPenLaws : Obligations.StepKeepsPenLaws :=
  ⟨fun s t h e => (penHolds_iff t).mpr (step_penned ((penHolds_iff s).mp h) e),
    fun s h => ((penHolds_iff s).mp h).laws⟩

end Sys2Proof.Machine

/-!
PDC's report beside the rest (R141, R142).

PDC offers PEN_STATE and SPU chooses the part mode again, in no order. What stands then of the queue and of the condition
flags does not depend on that order: SPU's part leaves an entry of another kind in the queue and every flag but the late
one (`Aside`).
-/
namespace Sys2Proof.Machine
open Sys2Proof.Claims

variable {s t u : State} {m : List Part} {e x : Event} {lc : Lc}

/-! ### Events of a kind in the queue (R188, R189) -/

/-- R189: an event offered while its class is granted stands in the queue, be it in the place of an entry of its kind. -/
theorem offer_waits_entry (kind : e.kind ≠ .vectors) (h : Taking e.kind.cls s.lc) : Waits e (offer e s).lc := by
  rw [offer_lc_sending e h.1, if_pos h.2]
  refine ⟨(congrArg Option.isSome (Lc.enqueue_tx e s.lc)).trans h.1, ?_⟩
  have last : ∀ q : List Event, e ∈ q ++ [e] := fun _ => List.mem_append_right _ (List.mem_singleton_self e)
  unfold Lc.enqueue
  split
  · rename_i coalesces
    obtain ⟨old, hmem, same⟩ := List.any_eq_true.mp coalesces.2
    exact .inl (List.mem_map.mpr ⟨old, hmem, if_pos (eq_of_beq same)⟩)
  · split
    · exact .inl (last _)
    · split
      · exact .inl (last _)
      · exact .inr rfl

/-- R189: only an event of its own kind replaces an entry, and only VECTORS is removed for another. -/
theorem Lc.enqueue_mem_other (kind : e.kind ≠ .vectors)
    (other : x.kind ≠ e.kind) (h : e ∈ lc.queue ∨ lc.lost = true) :
    e ∈ (lc.enqueue x).queue ∨ (lc.enqueue x).lost = true := by
  unfold Lc.enqueue
  split
  · exact h.imp (fun hmem => List.mem_map.mpr ⟨e, hmem, if_neg other.symm⟩) id
  · split
    · exact h.imp (List.mem_append_left _) id
    · split
      · exact h
      · split
        · refine h.imp (fun hmem => List.mem_append_left _ ((List.mem_eraseP_of_neg ?_).mpr hmem)) id
          simpa using kind
        · exact .inr rfl

theorem offer_keeps_entry (kind : e.kind ≠ .vectors) (other : x.kind ≠ e.kind) (h : Waits e s.lc) :
    Waits e (offer x s).lc := by
  rw [offer_lc_sending x h.1]
  split
  · exact ⟨(congrArg Option.isSome (Lc.enqueue_tx x s.lc)).trans h.1, Lc.enqueue_mem_other kind other h.2⟩
  · exact h

/-! ### What goes on beside PDC's record (R142, R152, R159) -/

/-- The live flags stand, but for that of BASE_SAMPLES_LATE, which SFE clears with its view (R12). -/
def SameFlags (s t : State) : Prop :=
  ∀ c : Cond, c ≠ .baseSamplesLate → bitHas t.cm.live c.idx = bitHas s.cm.live c.idx

/-- `t` follows `s` by events of other kinds than PEN_STATE, and by changes that reach neither LC nor a live flag but that of
BASE_SAMPLES_LATE. -/
inductive Aside : State → State → Prop
  | quiet {s t : State} (lc : t.lc = s.lc) (flags : SameFlags s t) : Aside s t
  | offers {s : State} {e : Event} (kind : e.kind ≠ .penState) : Aside s (offer e s)
  | trans {s t u : State} (first : Aside s t) (next : Aside t u) : Aside s u

theorem Aside.refl (s : State) : Aside s s := .quiet rfl fun _ _ => rfl

theorem Aside.flags (h : Aside s t) : SameFlags s t := by
  induction h with
  | quiet _ flags => exact flags
  | offers _ => exact fun _ _ => by rw [offer_cm]
  | trans _ _ first next => exact fun c hc => (next c hc).trans (first c hc)

theorem Aside.taking (h : Aside s t) (hs : Taking .pen s.lc) : Taking .pen t.lc := by
  induction h with
  | quiet lc _ => exact lc ▸ hs
  | offers _ => exact offer_taking _ hs
  | trans _ _ first next => exact next (first hs)

/-- PEN_STATE stands through what goes on beside it (R189). -/
theorem Aside.waits (h : Aside s t) {r : PenRecord} (hs : Waits (.penState r) s.lc) : Waits (.penState r) t.lc := by
  induction h with
  | quiet lc _ => exact lc ▸ hs
  | offers kind => exact offer_keeps_entry nofun kind hs
  | trans _ _ first next => exact next (first hs)

/-- Records of other blocks than LC and CM are replaced before the act. -/
theorem Aside.after (h : Aside u t) (lc : u.lc = s.lc) (cm : u.cm = s.cm) : Aside s t :=
  .trans (.quiet lc fun _ _ => by rw [cm]) h

theorem Aside.replaced (lc : t.lc = s.lc) (cm : t.cm = s.cm) : Aside s t := .quiet lc fun _ _ => by rw [cm]

theorem nextChoice_aside (s : State) : Aside s s.nextChoice := .replaced rfl rfl

theorem raceLc_aside {emit act : State → State} (he : ∀ v, Aside v (emit v)) (ha : ∀ v, Aside v (act v)) (s : State) :
    Aside s (raceLc emit act s) :=
  raceLc_keeps (P := Aside s) (fun v h => h.trans (nextChoice_aside v)) (fun v h => h.trans (he v))
    (fun v h => h.trans (ha v)) (.refl s)

theorem eitherOrder_aside {f g : State → State} (hf : ∀ v, Aside v (f v)) (hg : ∀ v, Aside v (g v)) (s : State) :
    Aside s (eitherOrder f g s) :=
  eitherOrder_holds (P := Aside s) (((nextChoice_aside s).trans (hf _)).trans (hg _))
    (((nextChoice_aside s).trans (hg _)).trans (hf _))

theorem evalTrigger_aside (tr : Trigger) (s : State) : Aside s (evalTrigger tr s) := by
  have offered : ∀ e spu, e.kind ≠ .penState → Aside s (offer e { s with spu := spu }) := fun e spu kind =>
    .after (.offers kind) rfl rfl
  have matures : ∀ spu, Aside s (mature tr { s with spu := spu }) := fun spu => by
    unfold mature
    dsimp only
    split
    · exact offered _ _ nofun
    · exact .replaced rfl rfl
  unfold evalTrigger triggerBegins triggerEnds
  dsimp only
  split
  · exact .refl s
  · split
    · split
      · exact matures _
      · exact .replaced rfl rfl
    · split
      · split
        · exact offered _ _ nofun
        · exact .replaced rfl rfl
      · exact .replaced rfl rfl

theorem spuView_aside (s : State) : Aside s (spuView s) := by
  unfold spuView
  dsimp only
  split
  · exact .after (eitherOrder_aside (evalTrigger_aside _) (evalTrigger_aside _) _) rfl rfl
  · exact .after ((evalTrigger_aside _ _).trans (evalTrigger_aside _ _)) rfl rfl

theorem emitPosture_aside (old p : Pe) (s : State) : Aside s (emitPosture old p s) := by
  have tells : ∀ (b : Bool) e v, e.kind ≠ .penState →
      Aside v (if b = true then offer e v else v) := fun b e v kind => by
    split
    · exact .offers kind
    · exact .refl v
  exact (tells (postureNews old p) (.postureChanged (postureRecord p)) s nofun).trans
    (tells (orientNews old p) (.orientationChanged (postureRecord p)) _ nofun)

theorem peStep_aside (p : Pe) (s : State) : Aside s (peStep spuView p s) := by
  unfold peStep
  dsimp only
  split
  · exact .after (raceLc_aside (emitPosture_aside _ _) spuView_aside _) rfl rfl
  · exact .after (spuView_aside _) rfl rfl

theorem cond_idx_injective {c d : Cond} (h : c ≠ d) : c.idx ≠ d.idx := by
  revert h
  cases c <;> cases d <;> decide

theorem sfeView_aside (s : State) : Aside s (sfeView s) := by
  unfold sfeView
  dsimp only
  split
  · exact .quiet rfl fun _ other => fall_live_ne (cond_idx_injective other)
  · exact .replaced rfl rfl

theorem breakBase_aside (s : State) : Aside s (breakBase s) := .after (peStep_aside _ _) rfl rfl

theorem compareStream_aside (s : State) : Aside s (compareStream s) := by
  unfold compareStream resumeStream quiesceStream
  split
  · split
    · exact .refl s
    · exact .after ((sfeView_aside _).trans (breakBase_aside _)) rfl rfl
  · split
    · exact .after (sfeView_aside _) rfl rfl
    · exact .refl s

theorem sfeMode_aside (old : PartMode) (s : State) : Aside s (sfeMode old s) := by
  have breaks : Aside s (breakBoth s) := .after (peStep_aside _ _) rfl rfl
  unfold sfeMode restartPeriod
  dsimp only
  split
  · exact .replaced rfl rfl
  · split
    · exact breaks.trans (.replaced rfl rfl)
    · exact .replaced rfl rfl

theorem bmMode_aside (old : PartMode) (s : State) : Aside s (bmMode old s) := by
  unfold bmMode
  split
  · exact .replaced rfl rfl
  · exact compareStream_aside s

theorem peMode_aside (s : State) : Aside s (peMode s) := by
  unfold peMode
  split
  · exact peStep_aside _ s
  · exact .refl s

theorem chooseMode_aside (s : State) : Aside s (chooseMode s) := by
  unfold chooseMode changeMode
  split
  · exact .refl s
  · have scans : ∀ v, Aside v (smMode v) := fun _ => .replaced rfl rfl
    exact .after ((((sfeMode_aside _ _).trans (scans _)).trans (bmMode_aside _ _)).trans (peMode_aside _)) rfl rfl

theorem cause_aside (c : WakeCause) (s : State) : Aside s (cause c s) := by
  unfold cause takeCause startEpisode
  split
  · split
    iterate 3 exact .refl s
    · exact .replaced rfl rfl
    · exact .after (chooseMode_aside _) rfl rfl
    · exact .replaced rfl rfl
  · exact .refl s

theorem spuPen_aside (c : Option WakeCause) (s : State) : Aside s (spuPen c s) := by
  unfold spuPen
  split
  · split
    · exact (cause_aside _ s).trans (chooseMode_aside _)
    · exact eitherOrder_aside (cause_aside _) chooseMode_aside s
  · exact chooseMode_aside s

/-! ### A step of PDC (R141, R142) -/

theorem when_offer_flags (news : Bool) (e : Event) (s : State) : SameFlags s ((if news = true then offer e else id) s) := by
  cases news with
  | false => exact fun _ _ => rfl
  | true => exact fun _ _ => congrArg (fun cm => bitHas (Cm.live cm) _) (offer_cm e s)

theorem SameFlags.trans (h : SameFlags s t) (g : SameFlags t u) : SameFlags s u := fun c hc => (g c hc).trans (h c hc)

theorem pdcStep_flags (c : Option WakeCause) (f : State → State) (s : State) : SameFlags (f s) (pdcStep c f s) := by
  unfold pdcStep
  dsimp only
  split
  · exact when_offer_flags _ _ _
  · exact raceLc_keeps (P := SameFlags (f s)) (fun _ h => h) (fun v h => h.trans (when_offer_flags _ _ v))
      (fun v h => h.trans (spuPen_aside c v).flags) fun _ _ => rfl

/-- R141: a change of PDC's state offers PEN_STATE, which stands through SPU's part. -/
theorem pdcStep_waits {c : Option WakeCause} {f : State → State} (turns : s.pdc.state ≠ (f s).pdc.state)
    (h : Taking .pen (f s).lc) : Waits (.penState (penRecord (f s).pdc)) (pdcStep c f s).lc := by
  have news : penNews s.pdc (f s).pdc = true := by simp [penNews, turns]
  have told : ∀ v, Taking .pen v.lc →
      Waits (.penState (penRecord (f s).pdc)) (offer (.penState (penRecord (f s).pdc)) v).lc :=
    fun v hv => offer_waits_entry nofun hv
  unfold pdcStep
  dsimp only
  rw [if_neg turns, if_pos news]
  rcases raceLc_cases (offer (.penState (penRecord (f s).pdc))) (spuPen c) (f s) with e | e | e <;> rw [e]
  · exact told _ ((spuPen_aside c _).taking h)
  · exact (spuPen_aside c _).waits (told (f s).nextChoice h)
  · exact told _ ((spuPen_aside c _).taking (s := (f s).nextChoice) h)

end Sys2Proof.Machine

/-!
The presence of the pen (R120 to R122).
-/
namespace Sys2Proof.Machine
open Sys2Proof.Claims

variable {s t u : State} {d : Nat} {l : Level}

/-! ### PDET (R120, R121) -/

theorem exec_pdetChange (l : Level) (held : s.held = none) : exec (.pdetChange l) s = .next (pdetChanged l s) :=
  congrArg Host.Outcome.next (onInput_running held)

theorem chooseMode_pdc (s : State) : (chooseMode s).pdc = s.pdc := (chooseMode_changes s).pdc_eq (by decide)

/-- PDC's record changes, and SPU chooses the part mode again. -/
theorem chooseMode_after (p : Pdc) (h : Changes [.garage, .charging] s { s with pdc := p }) :
    Changes ([.garage, .charging] ++ modeParts) s (chooseMode { s with pdc := p }) :=
  (h.mono (by decide)).step (chooseMode_changes _) (by decide)

theorem pdetChanged_same (h : l = s.pdc.pdet) : pdetChanged l s = s := if_pos h

theorem pdetChanged_inserted (new : .asserted ≠ s.pdc.pdet) (empty : s.pdc.state = .empty) :
    pdetChanged .asserted s =
      chooseMode { s with
        pdc := { s.pdc with pdet := .asserted, state := .settling, settle := some (s.now + 200) } } := by
  unfold pdetChanged
  rw [if_neg new]
  simp only [empty]
  rfl

theorem pdetChanged_bounced (new : .released ≠ s.pdc.pdet) (settling : s.pdc.state = .settling) :
    pdetChanged .released s =
      chooseMode { s with pdc := { s.pdc with pdet := .released, state := .empty, settle := none } } := by
  unfold pdetChanged
  rw [if_neg new]
  simp only [settling]

theorem pdetChanged_recorded (new : l ≠ s.pdc.pdet)
    (h : s.pdc.state = .empty ∧ l = .released ∨ s.pdc.state = .settling ∧ l = .asserted) :
    pdetChanged l s = { s with pdc := { s.pdc with pdet := l } } := by
  unfold pdetChanged
  rw [if_neg new]
  rcases h with ⟨state, rfl⟩ | ⟨state, rfl⟩ <;> simp only [state]

/-- R121: a pen that leaves its garage is gone only 50 ms later. -/
theorem pdetChanged_left (new : .released ≠ s.pdc.pdet) (empty : s.pdc.state ≠ .empty)
    (settling : s.pdc.state ≠ .settling) :
    pdetChanged .released s = { s with pdc := { s.pdc with pdet := .released, removal := some (s.now + 50) } } := by
  unfold pdetChanged
  rw [if_neg new]
  dsimp only
  cases state : s.pdc.state with
  | empty => exact absurd state empty
  | settling => exact absurd state settling
  | _ => rfl

theorem pdetChanged_back (new : .asserted ≠ s.pdc.pdet) (empty : s.pdc.state ≠ .empty)
    (settling : s.pdc.state ≠ .settling) :
    pdetChanged .asserted s = { s with pdc := { s.pdc with pdet := .asserted, removal := none } } := by
  unfold pdetChanged
  rw [if_neg new]
  dsimp only
  cases state : s.pdc.state with
  | empty => exact absurd state empty
  | settling => exact absurd state settling
  | _ => rfl

/-! ### The end of the settling (R120) -/

theorem exec_penSettleTimerExpiry (held : s.held = none) (settling : s.pdc.state = .settling) (due : s.pdc.settle = some d) :
    exec .penSettleTimerExpiry s = .next (penSettled (runTo d s)) :=
  congrArg Host.Outcome.next (expiry_running (fun v => whenIn (decide (v.pdc.state = .settling)) v.pdc.settle) penSettled
    held ((whenIn_here _ (decide_eq_true settling)).trans due))

theorem exec_penSettleTimerExpiry_idle (held : s.held = none) (h : s.pdc.state ≠ .settling) :
    exec .penSettleTimerExpiry s = .next s :=
  congrArg Host.Outcome.next (expiry_idle (fun v => whenIn (decide (v.pdc.state = .settling)) v.pdc.settle) penSettled
    held (whenIn_elsewhere _ (decide_eq_false h)))

/-- A step of PDC leaves the records of PDC and RBA, the time, the settings and the queries as its act has made them. -/
theorem pdcStep_pdc (c : Option WakeCause) (f : State → State) (s : State) : (pdcStep c f s).pdc = (f s).pdc :=
  (pdcStep_reports c f s).pdc_eq (by decide)

theorem pdcStep_rba (c : Option WakeCause) (f : State → State) (s : State) : (pdcStep c f s).rba = (f s).rba :=
  (pdcStep_reports c f s).rba_eq (by decide)

theorem penSettled_pdc (s : State) :
    (penSettled s).pdc =
      { s.pdc with
        settle := none, state := .identifying, misses := 0, poll := none, outstanding := true
        response := some (s.now + 50) } := pdcStep_pdc _ _ _

theorem penSettled_queries (s : State) : (penSettled s).queries = s.queries + 1 :=
  (pdcStep_reports _ _ _).same .queries (by decide)

theorem penSettled_waits (settling : s.pdc.state = .settling) (h : Taking .pen s.lc) :
    Waits (.penState (penRecord (penSettled s).pdc)) (penSettled s).lc := by
  have turns : s.pdc.state ≠ (startPoll (enterIdentifying { s with pdc := { s.pdc with settle := none } })).pdc.state := by
    rw [settling]
    nofun
  rw [show (penSettled s).pdc = _ from pdcStep_pdc _ _ _]
  exact pdcStep_waits (s := { s with pdc := { s.pdc with settle := none } }) turns h

/-! ### The removal (R121, R122) -/

theorem exec_penRemoval (held : s.held = none) (due : s.pdc.removal = some d) :
    exec .penRemoval s = .next (penRemoved (runTo d s)) :=
  congrArg Host.Outcome.next (expiry_running (fun v => v.pdc.removal) penRemoved held due)

theorem exec_penRemoval_idle (held : s.held = none) (h : s.pdc.removal = none) : exec .penRemoval s = .next s :=
  congrArg Host.Outcome.next (expiry_idle (fun v => v.pdc.removal) penRemoved held h)

/-- The pen is gone, and PDC has told it. -/
def removalTold (s : State) : State := pdcStep (some .penRemoved) removePen { s with pdc := { s.pdc with removal := none } }

theorem removalTold_pdc (s : State) :
    (removalTold s).pdc =
      { s.pdc with
        removal := none, setpoint := 0, poll := none, response := none, outstanding := false, misses := 0, fault := none
        reasons := bitDrop s.pdc.reasons SuspendReason.temp.idx, last := none, remembered := none
        cycleOpen := false, chargeMs := 0, prechargeMs := 0, runStart := none, grant := 0, state := .empty } := by
  rw [removalTold, pdcStep_pdc, removePen_pdc]

/-- R122: the condition of the fault falls with the pen. -/
theorem removePen_clears {f : PenFault} (h : s.pdc.fault = some f) :
    bitHas (removePen s).cm.live (penCond f).idx = false := by
  have fault : (stopCharging s).pdc.fault = some f := by rw [stopCharging_pdc, h]
  unfold removePen fallFault
  dsimp only
  rw [fault]
  exact bitHas_bitDrop_self _

theorem penCond_other (f : PenFault) : penCond f ≠ .baseSamplesLate := by cases f <;> nofun

/-- R121: a level that is asserted again by then settles afresh. -/
theorem penAfresh_pdc (empty : s.pdc.state = .empty) :
    (penAfresh s).pdc =
      { s.pdc with
        state := if s.pdc.pdet = .asserted then .settling else .empty
        settle := if s.pdc.pdet = .asserted then some (s.now + 200) else s.pdc.settle } := by
  unfold penAfresh settlePen
  by_cases afresh : s.pdc.pdet = .asserted
  · rw [if_pos ⟨empty, afresh⟩, chooseMode_pdc, if_pos afresh, if_pos afresh]
  · rw [if_neg fun h => afresh h.2, if_neg afresh, if_neg afresh, ← empty]

theorem penAfresh_aside (s : State) : Aside s (penAfresh s) := by
  unfold penAfresh settlePen
  split
  · exact .after (chooseMode_aside _) rfl rfl
  · exact .refl s

theorem penRemoved_eq (s : State) : penRemoved s = penAfresh (removalTold s) := rfl

theorem removalTold_now (s : State) : (removalTold s).now = s.now := by
  have told : (removalTold s).now = (removePen { s with pdc := { s.pdc with removal := none } }).now :=
    (pdcStep_reports _ removePen _).same .now (by decide)
  have removed : (removePen { s with pdc := { s.pdc with removal := none } }).now = s.now :=
    (removePen_changes _).same .now (by decide)
  exact told.trans removed

theorem penRemoved_pdc (s : State) :
    (penRemoved s).pdc =
      { s.pdc with
        removal := none, poll := none, response := none, outstanding := false, misses := 0, fault := none
        reasons := bitDrop s.pdc.reasons SuspendReason.temp.idx, last := none, remembered := none
        cycleOpen := false, chargeMs := 0, prechargeMs := 0, runStart := none, grant := 0, setpoint := 0
        state := if s.pdc.pdet = .asserted then .settling else .empty
        settle := if s.pdc.pdet = .asserted then some (s.now + 200) else s.pdc.settle } := by
  have told := removalTold_pdc s
  rw [penRemoved_eq, penAfresh_pdc (by rw [told]), told, removalTold_now]

theorem penRemoved_claim (s : State) : (penRemoved s).rba.pen = none := by
  rw [penRemoved_eq, (penAfresh_changes _).same .penClaim (by decide), removalTold, pdcStep_rba, removePen_rba]
  exact stopCharging_pen _

theorem penRemoved_clears {f : PenFault} (h : s.pdc.fault = some f) :
    bitHas (penRemoved s).cm.live (penCond f).idx = false := by
  rw [penRemoved_eq, (penAfresh_aside _).flags _ (penCond_other f), removalTold, pdcStep_flags _ _ _ _ (penCond_other f)]
  exact removePen_clears (s := { s with pdc := { s.pdc with removal := none } }) h

theorem penRemoved_waits (there : s.pdc.state ≠ .empty) (h : Taking .pen s.lc) :
    Waits (.penState (penRecord { (penRemoved s).pdc with state := .empty })) (penRemoved s).lc := by
  have turns : s.pdc.state ≠ (removePen { s with pdc := { s.pdc with removal := none } }).pdc.state := by
    rw [removePen_pdc]
    exact there
  have lc : (removePen { s with pdc := { s.pdc with removal := none } }).lc = s.lc :=
    (removePen_changes _).lc_eq (by decide)
  have told : Waits _ (removalTold s).lc :=
    pdcStep_waits (s := { s with pdc := { s.pdc with removal := none } }) turns (by rwa [lc])
  have waits := (penAfresh_aside _).waits told
  rw [removePen_pdc] at waits
  rw [penRemoved_pdc]
  exact waits

/-- Settles O46. What a removal comes to is read off PDC's record when it has told it (`removalTold_pdc`); PEN_STATE and the
fallen condition stand through SPU's part in it (`Aside`). -/
theorem penPresence : Obligations.PenPresence := by
  intro l s held
  dsimp only
  rw [exec_pdetChange l held]
  have elapsed : ∀ d, (runTo d s).pdc.state = s.pdc.state := fun d => runTo_pdcState d s
  have moved : ∀ state settle, Changes [.garage, .charging] s
      { s with pdc := { s.pdc with pdet := l, state := state, settle := settle } } := fun _ _ => by
    refine ⟨fun p hp => ?_⟩; cases p <;> first | exact absurd (by decide) hp | rfl
  refine ⟨fun same => by rw [pdetChanged_same same], ?_, ?_, ?_, fun new empty settling => ?_, fun d due settling => ?_,
    fun elsewhere => exec_penSettleTimerExpiry_idle held elsewhere, fun d due => ?_,
    fun idle => exec_penRemoval_idle held idle⟩
  · rintro new empty rfl
    refine ⟨_, rfl, ?_⟩
    rw [pdetChanged_inserted new empty]
    exact ⟨chooseMode_pdc _, chooseMode_after _ (moved _ _)⟩
  · rintro new settling rfl
    refine ⟨_, rfl, ?_⟩
    rw [pdetChanged_bounced new settling]
    exact ⟨chooseMode_pdc _, chooseMode_after _ (moved _ _)⟩
  · exact fun new h => by rw [pdetChanged_recorded new h]
  · cases l with
    | released => rw [pdetChanged_left new empty settling]
    | asserted => rw [pdetChanged_back new empty settling]
  · refine ⟨_, exec_penSettleTimerExpiry held settling due, penSettled_pdc _, penSettled_queries _,
      fun sending granted => ?_, ?_⟩
    · exact (penSettled_waits ((elapsed d).trans settling) ⟨sending, granted⟩).queued
    · exact ((runTo_changes d s).mono (by decide)).step (penSettled_changes _) (by decide)
  · have same : (runTo d s).pdc.pdet = s.pdc.pdet ∧ (runTo d s).pdc.settle = s.pdc.settle ∧
        (runTo d s).pdc.reasons = s.pdc.reasons ∧ (runTo d s).pdc.fault = s.pdc.fault := by
      rw [runTo_pdc, Pdc.elapse_eq]
      exact ⟨rfl, rfl, rfl, rfl⟩
    obtain ⟨pdet, settle, reasons, fault⟩ := same
    refine ⟨_, exec_penRemoval held due, ?_, penRemoved_claim _, fun f hf => penRemoved_clears (fault.trans hf),
      fun sending granted there => ?_, ?_⟩
    · simp only [penRemoved_pdc, pdet, settle, reasons]
    · exact (penRemoved_waits (s := runTo d s) (by rwa [elapsed]) ⟨sending, granted⟩).queued
    · exact ((runTo_changes d s).mono (by decide)).step (penRemoved_changes _) (by decide)

end Sys2Proof.Machine

/-!
What PDC's acts come to (R127, R134, R136, R139).

FULL, FAULT, a suspension and the phase choice, each said once in the words of the claims; `Chosen` is the outcome of a
phase choice, which is all that a resumed, a newly identified and a discharged pen have in common.
-/
namespace Sys2Proof.Machine
open Sys2Proof.Claims

variable {s t u v : State} {st : PenStatus} {w : PenSettings} {ph : ChargePhase} {new : BitVec 3} {code : Nat} {f : PenFault}

/-! ### Suspension and FULL (R134, R136) -/

theorem suspendPen_pdc (s : State) :
    (suspendPen s).pdc =
      { s.pdc with
        state := .suspended, setpoint := 0, grant := 0, remembered := none, runStart := none
        poll := (suspendPen s).pdc.poll } := by
  unfold suspendPen enterPdc
  dsimp only
  rw [stopCharging_pdc]

theorem suspendPen_pen (s : State) : (suspendPen s).rba.pen = none := stopCharging_pen s

theorem reachFull_pdc (s : State) :
    (reachFull s).pdc =
      { s.pdc with
        state := .full, setpoint := 0, grant := 0, cycleOpen := false, runStart := none
        poll := (reachFull s).pdc.poll } := by
  unfold reachFull enterPdc
  dsimp only
  rw [stopCharging_pdc]

theorem reachFull_stands (s : State) : fullStands s (reachFull s) := by
  rw [fullStands, reachFull_pdc]
  exact ⟨rfl, rfl, stopCharging_pen s, rfl, rfl, rfl, rfl⟩

/-! ### FAULT (R139) -/

theorem enterFault_rose (reason : PenFault) (clear : bitHas s.cm.live (penCond reason).idx = false) :
    Rose (penCond reason) (penFaultCode reason) s (enterFault reason s) := by
  have cm : (stopCharging s).cm = s.cm := (stopCharging_changes s).cm_eq (by decide)
  have rose : Rose (penCond reason) (penFaultCode reason) _ (enterFault reason s) :=
    rise_rose fun _ => (congrArg (fun c => bitHas c.live (penCond reason).idx) cm).trans clear
  exact rose.congr (congrArg Cm.ring cm.symm) (congrArg Cm.next cm.symm) rfl

theorem enterFault_stands (reason : PenFault) (s : State) :
    faultStands reason (penFaultCode reason) s (enterFault reason s) := by
  rw [faultStands, enterFault_pdc, enterFault_rba]
  exact ⟨rfl, rfl, rfl, stopCharging_pen s, rfl, rfl, rfl, rfl, rfl, enterFault_rose reason,
    (enterFault_changes reason s).mono (by decide)⟩

theorem endPoll_fault (state : s.pdc.state = .fault) (poll : s.pdc.poll = none) : endPoll s = s := by
  unfold endPoll
  rw [state]
  change { s with pdc := { s.pdc with poll := none } } = s
  rw [← poll]

/-- What PDC's fault comes to is not undone by its report of it. -/
theorem pdcStep_faultStands (c : Option WakeCause) {act : State → State} (h : faultStands f code u (act s)) :
    faultStands f code u (pdcStep c act s) := by
  obtain ⟨state, fault, setpoint, claim, poll, response, outstanding, cycle, remembered, rose, frame⟩ := h
  have told := pdcStep_reports c act s
  rw [faultStands, pdcStep_pdc, pdcStep_rba]
  refine ⟨state, fault, setpoint, claim, poll, response, outstanding, cycle, remembered, fun clear => ?_,
    frame.step told (by decide)⟩
  obtain ⟨latched, live, next, record⟩ := rose clear
  obtain ⟨ring, number⟩ := told.history_eq (by decide)
  refine ⟨?_, fun kind => ?_, number.trans next, by rwa [ring]⟩
  · rwa [told.same .latched (by decide)]
  · rw [pdcStep_flags c act s _ (penCond_other f)]
    exact live kind

/-! ### The phase choice (R127) -/

/-- What the phase choice comes to for a sound pen that nothing suspends. -/
def Chosen (w : PenSettings) (st : PenStatus) (u t : State) : Prop :=
  (u.pdc.cycleOpen = false → w.recharge ≤ st.charge → fullStands u t) ∧
  (u.pdc.cycleOpen = true ∨ st.charge < w.recharge →
    cycleRuns w u t ∧ phaseOf w st.cell fun ph amount => phaseFiled ph amount u t)

/-- A phase choice concerns PDC's record without its polls, and the claim table. -/
theorem Chosen.congr (h : Chosen w st u v) (pdc : t.pdc = { v.pdc with poll := t.pdc.poll }) (rba : t.rba = v.rba) :
    Chosen w st u t := by
  unfold Chosen fullStands cycleRuns phaseFiled at h ⊢
  rw [pdc, rba]
  exact h

theorem phaseOf_phaseOfCell {stands : ChargePhase → Nat → Prop} {cell : Nat}
    (h : stands (phaseOfCell cell) (phaseAmount w (phaseOfCell cell))) : phaseOf w cell stands := by
  refine ⟨fun low => ?_, fun above below => ?_, fun high => ?_⟩
  · rwa [phaseOfCell, if_pos low] at h
  · rwa [phaseOfCell, if_neg (by omega), if_pos below] at h
  · rwa [phaseOfCell, if_neg (by omega), if_neg (by omega)] at h

theorem openCycle_cycle (s : State) : cycleRuns s.settings.pen s (openCycle s) := by
  unfold openCycle
  split
  · rename_i running
    exact ⟨running, fun _ => ⟨rfl, rfl, rfl⟩, fun closed => by simp [running] at closed⟩
  · rename_i closed
    exact ⟨rfl, fun running => absurd running closed, fun _ => ⟨rfl, rfl, rfl⟩⟩

theorem openCycle_rest (s : State) :
    (openCycle s).rba = s.rba ∧ (openCycle s).settings = s.settings := by
  unfold openCycle
  split
  · exact ⟨rfl, rfl⟩
  · exact ⟨rfl, rfl⟩

theorem phaseChoice_full (last : s.pdc.last = some st) (sound : st.cellFault = false) (closed : s.pdc.cycleOpen = false)
    (charged : s.settings.pen.recharge ≤ st.charge) : phaseChoice s = reachFull s := by
  unfold phaseChoice
  rw [last]
  dsimp only
  rw [if_neg (by rw [sound]; nofun), if_pos ⟨closed, charged⟩]

theorem not_charged (h : s.pdc.cycleOpen = true ∨ st.charge < w.recharge) :
    ¬ (s.pdc.cycleOpen = false ∧ w.recharge ≤ st.charge) := by
  rintro ⟨closed, charged⟩
  rcases h with running | below
  · simp [running] at closed
  · omega

theorem phaseChoice_suspends (last : s.pdc.last = some st) (sound : st.cellFault = false)
    (needs : s.pdc.cycleOpen = true ∨ st.charge < s.settings.pen.recharge) (reasons : s.pdc.reasons ≠ 0) :
    phaseChoice s = suspendPen s := by
  unfold phaseChoice
  rw [last]
  dsimp only
  rw [if_neg (by rw [sound]; nofun), if_neg (not_charged needs), if_pos reasons]

theorem phaseChoice_enters (last : s.pdc.last = some st) (sound : st.cellFault = false)
    (needs : s.pdc.cycleOpen = true ∨ st.charge < s.settings.pen.recharge) (clear : s.pdc.reasons = 0) :
    phaseChoice s = enterPhase (phaseOfCell st.cell) (openCycle s) := by
  unfold phaseChoice
  rw [last]
  dsimp only
  rw [if_neg (by rw [sound]; nofun), if_neg (not_charged needs), if_neg (not_not_intro clear)]

theorem phaseChoice_chosen (last : s.pdc.last = some st) (sound : st.cellFault = false) (clear : s.pdc.reasons = 0) :
    Chosen s.settings.pen st s (phaseChoice s) := by
  refine ⟨fun closed charged => ?_, fun needs => ?_⟩
  · rw [phaseChoice_full last sound closed charged]
    exact reachFull_stands s
  · obtain ⟨rba, settings⟩ := openCycle_rest s
    have filed := enterPhase_filed (phaseOfCell st.cell) (openCycle s)
    unfold phaseFiled at filed
    rw [rba, settings] at filed
    rw [phaseChoice_enters last sound needs clear]
    refine ⟨?_, phaseOf_phaseOfCell filed⟩
    rw [cycleRuns, enterPhase_pdc]
    exact openCycle_cycle s

/-- The phase choice of a pen that nothing suspends leaves SUSPENDED. -/
theorem phaseChoice_running (last : s.pdc.last = some st) (sound : st.cellFault = false) (clear : s.pdc.reasons = 0) :
    (phaseChoice s).pdc.state ≠ .suspended := by
  by_cases charged : s.pdc.cycleOpen = false ∧ s.settings.pen.recharge ≤ st.charge
  · rw [phaseChoice_full last sound charged.1 charged.2, reachFull_pdc]
    nofun
  · have needs : s.pdc.cycleOpen = true ∨ st.charge < s.settings.pen.recharge := by
      by_contra neither
      simp only [not_or, Bool.not_eq_true, Nat.not_lt] at neither
      exact charged neither
    rw [phaseChoice_enters last sound needs clear]
    rcases phaseFiled_state (enterPhase_filed (phaseOfCell st.cell) (openCycle s)) with ⟨state, -⟩ | ⟨-, state, -⟩
    · rw [state]
      cases phaseOfCell st.cell <;> nofun
    · rw [state]
      nofun

/-! ### The suspend-reason set (R134) -/

theorem changeReasons_suspends (old : s.pdc.reasons = 0) (reason : new ≠ 0)
    (busy : PdcState.charging s.pdc.state = true ∨ s.pdc.state = .waitGrant) :
    changeReasons new s = suspendPen { s with pdc := { s.pdc with reasons := new } } := if_pos ⟨old, reason, busy⟩

theorem changeReasons_resumes (old : s.pdc.reasons ≠ 0) (suspended : s.pdc.state = .suspended) :
    changeReasons 0 s = phaseChoice { s with pdc := { s.pdc with reasons := 0 } } :=
  (if_neg fun h => old h.1).trans (if_pos ⟨old, rfl, suspended⟩)

theorem changeReasons_rests
    (busy : PdcState.charging s.pdc.state = true ∨ s.pdc.state = .waitGrant → s.pdc.reasons = 0 → new = 0)
    (suspended : s.pdc.state = .suspended → s.pdc.reasons ≠ 0 → new ≠ 0) :
    changeReasons new s = { s with pdc := { s.pdc with reasons := new } } :=
  (if_neg fun h => h.2.1 (busy h.2.2 h.1)).trans (if_neg fun h => suspended h.2.2 h.1 h.2.1)

end Sys2Proof.Machine

/-!
Polls, misses and pen statuses (R123 to R126, R131 to R134).

A handled status is `statusTaken` with the poll timer of the state it leaves PDC in (`statusHandled_pdc`); `statusTaken` is
a suspension, a phase choice or PDC's own handling of `statusRecorded`, by what step 4 of R126 makes of the suspend-reason
set.
-/
namespace Sys2Proof.Machine
open Sys2Proof.Claims

variable {s t u v : State} {st raw : PenStatus} {w : PenSettings} {ph : ChargePhase} {intact : Bool} {d n amount : Nat}

/-! ### Polls and misses (R123, R125) -/

theorem pollMs_eq (st : PdcState) : pollMs st = pollInterval st := by cases st <;> rfl

theorem exec_pollTimerExpiry (held : s.held = none) (due : s.pdc.poll = some d) :
    exec .pollTimerExpiry s = .next (startPoll (runTo d s)) :=
  congrArg Host.Outcome.next (expiry_running (fun v => v.pdc.poll) startPoll held due)

theorem exec_pollTimerExpiry_idle (held : s.held = none) (h : s.pdc.poll = none) : exec .pollTimerExpiry s = .next s :=
  congrArg Host.Outcome.next (expiry_idle (fun v => v.pdc.poll) startPoll held h)

theorem exec_responseTimerExpiry (held : s.held = none) (due : s.pdc.response = some d) :
    exec .responseTimerExpiry s = .next (pollUnanswered (runTo d s)) :=
  congrArg Host.Outcome.next (expiry_running (fun v => v.pdc.response) pollUnanswered held due)

theorem exec_responseTimerExpiry_idle (held : s.held = none) (h : s.pdc.response = none) :
    exec .responseTimerExpiry s = .next s :=
  congrArg Host.Outcome.next (expiry_idle (fun v => v.pdc.response) pollUnanswered held h)

/-- PDC tells nothing of an act that leaves its state and offers no news (R141, R142). -/
theorem pdcStep_quiet {c : Option WakeCause} {act : State → State} (h : penNews s.pdc (act s).pdc = false) :
    pdcStep c act s = act s := by
  have state : s.pdc.state = (act s).pdc.state := by
    by_contra turns
    simp [penNews, turns] at h
  unfold pdcStep
  dsimp only
  rw [if_pos state, if_neg (by rw [h]; nofun)]
  rfl

/-- The poll that has had no answer ends as a miss. -/
def missed (s : State) : State :=
  { s with pdc := { s.pdc with response := none, outstanding := false, misses := s.pdc.misses + 1 } }

theorem pollUnanswered_eq (s : State) :
    pollUnanswered s =
      pdcStep none
        (fun v => endPoll (if 3 ≤ (missed v).pdc.misses then enterFault .noResponse (missed v) else missed v)) s := rfl

/-- R125: below three misses PDC only counts. -/
theorem pollUnanswered_counts (few : s.pdc.misses < 2) : pollUnanswered s = endPoll (missed s) := by
  have counts : ¬ 3 ≤ (missed s).pdc.misses := by
    change ¬ 3 ≤ s.pdc.misses + 1
    omega
  rw [pollUnanswered_eq, pdcStep_quiet]
  · rw [if_neg counts]
  · rw [if_neg counts]
    simp [penNews, endPoll, missed]

/-- R125, R139: the third miss is a fault. -/
theorem pollUnanswered_faults (many : 2 ≤ s.pdc.misses) : faultStands .noResponse 1 s (pollUnanswered s) := by
  have third : 3 ≤ (missed s).pdc.misses := by
    change 3 ≤ s.pdc.misses + 1
    omega
  obtain ⟨state, reason, setpoint, claim, poll, response, outstanding, cycle, remembered, rose, frame⟩ :=
    enterFault_stands .noResponse (missed s)
  have counted : Changes penParts s (missed s) := by
    refine ⟨fun p hp => ?_⟩; cases p <;> first | exact absurd (by decide) hp | rfl
  rw [pollUnanswered_eq]
  refine pdcStep_faultStands none ?_
  rw [if_pos third, endPoll_fault state poll]
  exact ⟨state, reason, setpoint, claim, poll, response, outstanding, cycle, remembered, rose,
    counted.trans frame⟩

/-! ### A status is handled (R126) -/

/-- The poll has had its answer. -/
def pollAnswered (s : State) : State :=
  { s with pdc := { s.pdc with response := none, outstanding := false, misses := 0 } }

/-- The status is recorded. -/
def statusHeard (st : PenStatus) (s : State) : State :=
  { s with pdc := { s.pdc with response := none, outstanding := false, misses := 0, last := some st } }

/-- The status is recorded, and TEMP stands by its temperature. -/
def statusRecorded (st : PenStatus) (s : State) : State :=
  { s with
    pdc := { s.pdc with
      response := none, outstanding := false, misses := 0, last := some st
      reasons := tempReasons st.temp s.pdc.reasons } }

/-- What PDC makes of a status of the pen it knows. -/
def statusTaken (st : PenStatus) (s : State) : State := takeStatus st (pollAnswered s)

/-- PDC handles the status of the pen it knows, and tells of it. -/
def statusHandled (st : PenStatus) (s : State) : State := pdcStep none (fun v => endPoll (takeStatus st v)) (pollAnswered s)

theorem exec_penStatus (held : s.held = none) (intact : Bool) (raw : PenStatus) :
    exec (.penStatus intact raw) s = .next (penStatusArrived intact raw s) :=
  congrArg Host.Outcome.next (whileRunning_running _ held)

theorem penStatusArrived_stray (h : intact = false ∨ s.pdc.outstanding = false) : penStatusArrived intact raw s = s :=
  if_neg fun both => by rcases h with h | h <;> simp [h] at both

theorem penStatusArrived_known (whole : intact = true) (asked : s.pdc.outstanding = true)
    (known : s.pdc.state = .identifying ∨ ∀ l, s.pdc.last = some l → l.serial = raw.serial) :
    penStatusArrived intact raw s = statusHandled (saturateStatus raw) s := by
  have same : otherPen (saturateStatus raw) (pollAnswered s).pdc = false := by
    unfold otherPen
    change (decide (s.pdc.state ≠ .identifying) && match s.pdc.last with
      | some l => decide (l.serial ≠ raw.serial)
      | none => false) = false
    rcases known with state | serial
    · simp [state]
    · cases last : s.pdc.last with
      | none => simp
      | some l => simp [serial l last]
  have arrives : penStatusArrived intact raw s = handleStatus (saturateStatus raw) (pollAnswered s) :=
    if_pos ⟨whole, asked⟩
  rw [arrives, handleStatus, if_neg (by rw [same]; nofun)]
  rfl

theorem statusHandled_pdc (st : PenStatus) (s : State) :
    (statusHandled st s).pdc =
      { (statusTaken st s).pdc with poll := (pollInterval (statusTaken st s).pdc.state).map (s.now + ·) } := by
  have now : (statusTaken st s).now = s.now := (takeStatus_changes st (pollAnswered s)).same .now (by decide)
  rw [← now]
  exact pdcStep_pdc none _ _

theorem statusHandled_rba (st : PenStatus) (s : State) : (statusHandled st s).rba = (statusTaken st s).rba :=
  pdcStep_rba none _ _

theorem pollAnswered_changes (s : State) : Changes [.polls] s (pollAnswered s) := by
  refine ⟨fun p hp => ?_⟩; cases p <;> first | exact absurd (by decide) hp | rfl

theorem statusHandled_changes (st : PenStatus) (s : State) : Changes penParts s (statusHandled st s) := by
  have acts : Changes penParts (pollAnswered s) (endPoll (takeStatus st (pollAnswered s))) :=
    ((takeStatus_changes st _).mono (by decide)).step (endPoll_changes _) (by decide)
  have told : Changes penParts (pollAnswered s) (statusHandled st s) :=
    acts.trans ((pdcStep_reports none (fun v => endPoll (takeStatus st v)) _).mono (by decide))
  exact ((pollAnswered_changes s).mono (by decide)).trans told

/-- R126 step 3: a cell fault is a fault of the pen. -/
theorem statusTaken_faults (fault : st.cellFault = true) :
    statusTaken st s = enterFault .cell (statusHeard st s) :=
  if_pos fault

theorem statusHandled_faults (fault : st.cellFault = true) : faultStands .cell 2 s (statusHandled st s) := by
  obtain ⟨state, reason, setpoint, claim, poll, response, outstanding, cycle, remembered, rose, frame⟩ :=
    enterFault_stands .cell (statusHeard st s)
  have heard : Changes penParts s (statusHeard st s) := by
    refine ⟨fun p hp => ?_⟩; cases p <;> first | exact absurd (by decide) hp | rfl
  refine pdcStep_faultStands none ?_
  rw [show takeStatus st (pollAnswered s) = _ from statusTaken_faults fault, endPoll_fault state poll]
  exact ⟨state, reason, setpoint, claim, poll, response, outstanding, cycle, remembered, rose, heard.trans frame⟩

/-- The record of the poll that PDC has handled. -/
def Heard (st : PenStatus) (v : State) : Prop :=
  v.pdc.last = some st ∧ v.pdc.outstanding = false ∧ v.pdc.response = none ∧ v.pdc.misses = 0

theorem Heard.of_fault (h : Heard st v) (reason : PenFault) : Heard st (enterFault reason v) := by
  rw [Heard, enterFault_pdc]
  exact ⟨h.1, rfl, rfl, h.2.2.2⟩

theorem Heard.of_phase (h : Heard st v) (ph : ChargePhase) : Heard st (enterPhase ph v) := by
  rw [Heard, enterPhase_pdc]
  exact h

theorem Heard.of_suspension (h : Heard st v) : Heard st (suspendPen v) := by
  rw [Heard, suspendPen_pdc]
  exact h

theorem Heard.of_full (h : Heard st v) : Heard st (reachFull v) := by
  rw [Heard, reachFull_pdc]
  exact h

theorem Heard.of_cycle (h : Heard st v) : Heard st (openCycle v) := by
  unfold openCycle
  split
  · exact h
  · exact h

theorem Heard.of_choice (h : Heard st v) : Heard st (phaseChoice v) := by
  unfold phaseChoice
  rw [h.1]
  dsimp only
  split
  · exact h.of_fault _
  · split
    · exact h.of_full
    · split
      · exact h.of_suspension
      · exact h.of_cycle.of_phase _

theorem Heard.of_reasons (h : Heard st v) (new : BitVec 3) : Heard st (changeReasons new v) := by
  have told : Heard st { v with pdc := { v.pdc with reasons := new } } := h
  unfold changeReasons
  dsimp only
  split
  · exact told.of_suspension
  · split
    · exact told.of_choice
    · exact told

/-- R132: PDC's own handling of a status leaves the poll and the suspend-reason set. -/
theorem ownHandling_keeps (h : Heard st v) (x : PenStatus) :
    Heard st (ownHandling x v) ∧ (ownHandling x v).pdc.reasons = v.pdc.reasons := by
  have choice := And.intro h.of_choice (phaseChoice_reasons v)
  have phase : ∀ ph, _ := fun ph => And.intro (h.of_phase ph) (enterPhase_reasons ph v)
  have advance : Heard st (advancePhase x.cell v) ∧ (advancePhase x.cell v).pdc.reasons = v.pdc.reasons := by
    unfold advancePhase
    split
    · exact phase _
    · split
      · exact phase _
      · exact ⟨h, rfl⟩
  unfold ownHandling
  split
  · exact choice
  · exact advance
  · exact advance
  · split
    · exact choice
    · exact ⟨h, rfl⟩
  · exact ⟨h, rfl⟩

theorem statusTaken_heard (st : PenStatus) (s : State) :
    Heard st (statusTaken st s) ∧
      (st.cellFault = false → (statusTaken st s).pdc.reasons = tempReasons st.temp s.pdc.reasons) := by
  have heard : Heard st (statusHeard st s) := ⟨rfl, rfl, rfl, rfl⟩
  have judged := heard.of_reasons (tempReasons st.temp s.pdc.reasons)
  have reasons := changeReasons_reasons (tempReasons st.temp s.pdc.reasons)
    (statusHeard st s)
  cases fault : st.cellFault with
  | true =>
    rw [statusTaken_faults fault]
    exact ⟨heard.of_fault _, nofun⟩
  | false =>
    unfold statusTaken takeStatus
    dsimp only
    rw [if_neg (by rw [fault]; nofun)]
    split
    · exact ⟨judged, fun _ => reasons⟩
    · obtain ⟨own, kept⟩ := ownHandling_keeps judged st
      exact ⟨own, fun _ => kept.trans reasons⟩

/-! ### A sound status, by PDC's state (R126 steps 4 and 5) -/

theorem statusTaken_judged (sound : st.cellFault = false)
    (judged : changeReasons (tempReasons st.temp s.pdc.reasons) (statusHeard st s) = u) :
    statusTaken st s =
      if (decide (s.pdc.state = .suspended) != decide (u.pdc.state = .suspended)) = true then u else ownHandling st u := by
  rw [← judged]
  exact if_neg (by rw [sound]; nofun)

/-- R126 step 5: nothing changes at step 4 but the set, and PDC's own handling follows. -/
theorem statusTaken_own (sound : st.cellFault = false)
    (busy : PdcState.charging s.pdc.state = true ∨ s.pdc.state = .waitGrant → s.pdc.reasons = 0 →
      tempReasons st.temp s.pdc.reasons = 0)
    (suspended : s.pdc.state = .suspended → s.pdc.reasons ≠ 0 → tempReasons st.temp s.pdc.reasons ≠ 0) :
    statusTaken st s = ownHandling st (statusRecorded st s) := by
  have judged : changeReasons (tempReasons st.temp s.pdc.reasons) (statusHeard st s) = statusRecorded st s :=
    changeReasons_rests busy suspended
  rw [statusTaken_judged sound judged, if_neg]
  rw [show (statusRecorded st s).pdc.state = s.pdc.state from rfl, bne_self_eq_false]
  nofun

/-- R126 step 4: a pen that has become too cold or too warm is suspended. -/
theorem statusTaken_suspends (sound : st.cellFault = false) (clear : s.pdc.reasons = 0)
    (reason : tempReasons st.temp s.pdc.reasons ≠ 0)
    (busy : PdcState.charging s.pdc.state = true ∨ s.pdc.state = .waitGrant) :
    statusTaken st s = suspendPen (statusRecorded st s) := by
  have judged : changeReasons (tempReasons st.temp s.pdc.reasons) (statusHeard st s) = suspendPen (statusRecorded st s) :=
    changeReasons_suspends clear reason busy
  have running : s.pdc.state ≠ .suspended := fun state => by simp [state, PdcState.charging] at busy
  have state : (suspendPen (statusRecorded st s)).pdc.state = .suspended := by rw [suspendPen_pdc]
  rw [statusTaken_judged sound judged, if_pos (by simp [running, state])]

/-- R126 step 4: a pen whose last reason goes is resumed. -/
theorem statusTaken_resumes (sound : st.cellFault = false) (old : s.pdc.reasons ≠ 0)
    (clear : tempReasons st.temp s.pdc.reasons = 0) (suspended : s.pdc.state = .suspended) :
    statusTaken st s = phaseChoice (statusRecorded st s) := by
  have judged : changeReasons (tempReasons st.temp s.pdc.reasons) (statusHeard st s) =
      phaseChoice (statusRecorded st s) := by
    unfold statusRecorded
    rw [clear]
    exact changeReasons_resumes old suspended
  have running : (phaseChoice (statusRecorded st s)).pdc.state ≠ .suspended := phaseChoice_running rfl sound clear
  rw [statusTaken_judged sound judged, if_pos (by simp [running, suspended])]

/-! ### The state's own handling (R131, R132) -/

theorem ownHandling_chooses (x : PenStatus)
    (h : v.pdc.state = .identifying ∨ v.pdc.state = .full ∧ x.charge < v.settings.pen.recharge) :
    ownHandling x v = phaseChoice v := by
  rcases h with state | ⟨state, below⟩
  · simp only [ownHandling, state]
  · simp only [ownHandling, state, if_pos below]

theorem ownHandling_advances (x : PenStatus) (h : v.pdc.state = .precharge ∨ v.pdc.state = .charge) :
    ownHandling x v = advancePhase x.cell v := by
  rcases h with state | state <;> simp only [ownHandling, state]

theorem ownHandling_rests (x : PenStatus)
    (h : (v.pdc.state = .suspended ∨ v.pdc.state = .topoff ∨ v.pdc.state = .waitGrant) ∨
      v.pdc.state = .full ∧ v.settings.pen.recharge ≤ x.charge) : ownHandling x v = v := by
  rcases h with (state | state | state) | ⟨state, charged⟩
  · simp only [ownHandling, state]
  · simp only [ownHandling, state]
  · simp only [ownHandling, state]
  · simp only [ownHandling, state, if_neg (Nat.not_lt.mpr charged)]

theorem advancePhase_topoff {cell : Nat} (high : 4150 ≤ cell) : advancePhase cell v = enterPhase .topoff v := if_pos high

theorem advancePhase_charge {cell : Nat} (state : v.pdc.state = .precharge) (above : 3000 ≤ cell) (below : cell < 4150) :
    advancePhase cell v = enterPhase .charge v :=
  (if_neg (Nat.not_le.mpr below)).trans (if_pos ⟨state, above⟩)

theorem advancePhase_rests {cell : Nat}
    (h : v.pdc.state = .charge ∧ cell < 4150 ∨ v.pdc.state = .precharge ∧ cell < 3000) : advancePhase cell v = v := by
  unfold advancePhase
  rcases h with ⟨state, below⟩ | ⟨state, below⟩
  · rw [if_neg (by omega), if_neg (by rw [state]; exact fun h => nomatch h.1)]
  · rw [if_neg (by omega), if_neg (by omega)]

/-- R127, R132: PDC chooses the phase of a pen it has just identified. -/
theorem statusTaken_identifies (sound : st.cellFault = false) (identifying : s.pdc.state = .identifying) :
    statusTaken st s = phaseChoice (statusRecorded st s) := by
  rw [statusTaken_own sound (by rw [identifying]; nofun) (by rw [identifying]; nofun),
    ownHandling_chooses (v := statusRecorded st s) st (.inl identifying)]

/-! ### What stands after a handled status (R123, R126) -/

/-- A phase choice made at a poll, with the next poll by the state. -/
def ChosenAtPoll (w : PenSettings) (st : PenStatus) (u t : State) : Prop :=
  (u.pdc.cycleOpen = false → w.recharge ≤ st.charge → fullStands u t ∧ t.pdc.poll = some (u.now + 10000)) ∧
  (u.pdc.cycleOpen = true ∨ st.charge < w.recharge →
    cycleRuns w u t ∧ phaseOf w st.cell fun ph amount => phaseStands ph amount u t)

theorem phaseFiled.stands (h : phaseFiled ph amount u t) (poll : t.pdc.poll = (pollInterval t.pdc.state).map (u.now + ·)) :
    phaseStands ph amount u t := by
  refine ⟨h, poll.trans ?_⟩
  rcases phaseFiled_state h with ⟨state, -⟩ | ⟨-, state, -⟩
  · rw [state]
    cases ph <;> rfl
  · rw [state]
    rfl

theorem Chosen.atPoll (h : Chosen w st u t) (poll : t.pdc.poll = (pollInterval t.pdc.state).map (u.now + ·)) :
    ChosenAtPoll w st u t := by
  obtain ⟨full, enters⟩ := h
  refine ⟨fun closed charged => ?_, fun needs => ?_⟩
  · have stands := full closed charged
    exact ⟨stands, by rw [poll, stands.1]; rfl⟩
  · obtain ⟨runs, low, middle, high⟩ := enters needs
    exact ⟨runs, fun a => phaseFiled.stands (low a) poll, fun a b => phaseFiled.stands (middle a b) poll,
      fun a => phaseFiled.stands (high a) poll⟩

theorem statusHandled_poll (st : PenStatus) (s : State) :
    (statusHandled st s).pdc.poll = (pollInterval (statusHandled st s).pdc.state).map (s.now + ·) := by
  rw [statusHandled_pdc]

theorem statusHandled_chosen (sound : st.cellFault = false) (clear : tempReasons st.temp s.pdc.reasons = 0)
    (taken : statusTaken st s = phaseChoice (statusRecorded st s)) :
    ChosenAtPoll s.settings.pen st s (statusHandled st s) := by
  have chosen : Chosen s.settings.pen st s (phaseChoice (statusRecorded st s)) :=
    phaseChoice_chosen (s := statusRecorded st s) rfl sound clear
  refine (chosen.congr ?_ ?_).atPoll (statusHandled_poll st s)
  · rw [statusHandled_pdc, taken]
  · rw [statusHandled_rba, taken]

theorem statusHandled_enters (taken : statusTaken st s = enterPhase ph (statusRecorded st s)) :
    phaseStands ph (phaseAmount s.settings.pen ph) s (statusHandled st s) := by
  have filed : phaseFiled ph (phaseAmount s.settings.pen ph) s (enterPhase ph (statusRecorded st s)) :=
    enterPhase_filed ph (statusRecorded st s)
  refine phaseFiled.stands ?_ (statusHandled_poll st s)
  unfold phaseFiled at filed ⊢
  rw [statusHandled_pdc, statusHandled_rba, taken]
  exact filed

theorem statusHandled_suspends (taken : statusTaken st s = suspendPen (statusRecorded st s)) :
    (statusHandled st s).rba.pen = none ∧
      (statusHandled st s).pdc =
        { (statusRecorded st s).pdc with
          state := .suspended, setpoint := 0, grant := 0, remembered := none, runStart := none
          poll := some (s.now + 10000) } := by
  refine ⟨?_, ?_⟩
  · rw [statusHandled_rba, taken]
    exact suspendPen_pen _
  · rw [statusHandled_pdc, taken, suspendPen_pdc]
    rfl

theorem statusHandled_rests (taken : statusTaken st s = statusRecorded st s) (interval : pollInterval s.pdc.state = some n) :
    (statusHandled st s).pdc = { (statusRecorded st s).pdc with poll := some (s.now + n) } ∧
      (statusHandled st s).rba = s.rba := by
  refine ⟨?_, ?_⟩
  · rw [statusHandled_pdc, taken, show pollInterval (statusRecorded st s).pdc.state = some n from interval]
    rfl
  · rw [statusHandled_rba, taken]
    rfl

theorem runTo_pen (d : Nat) (s : State) :
    (runTo d s).pdc.misses = s.pdc.misses ∧ (runTo d s).pdc.state = s.pdc.state := by
  rw [runTo_pdc, Pdc.elapse_eq]
  exact ⟨rfl, rfl⟩

/-- Settles O47. What PDC makes of a taken status is `statusTaken`, and the cases of the claim are those of its
lemmas. -/
theorem penPolls : Obligations.PenPolls := by
  intro d intact raw s held
  extract_lets st taken mild temp reasons w polled chosen record rests later laterPen
  have handled : ∀ h : taken, exec (.penStatus intact raw) s = .next (statusHandled st s) :=
    fun ⟨whole, asked, known⟩ =>
      (exec_penStatus held intact raw).trans (congrArg _ (penStatusArrived_known whole asked known))
  have recorded : polled (statusHandled st s) := by
    have heard := (statusTaken_heard st s).1
    refine ⟨?_, ?_, ?_, ?_, statusHandled_changes st s⟩ <;> rw [statusHandled_pdc]
    · exact heard.1
    · exact heard.2.1
    · exact heard.2.2.1
    · exact heard.2.2.2
  obtain ⟨misses, state⟩ := runTo_pen d s
  refine ⟨fun due => ?_, exec_pollTimerExpiry_idle held, fun due few => ?_, fun due many => ?_,
    exec_responseTimerExpiry_idle held, fun stray => ?_, fun known fault => ?_, fun known sound => ?_⟩
  · exact exec_pollTimerExpiry held due
  · rw [exec_responseTimerExpiry held due, pollUnanswered_counts (by rwa [misses]), pollMs_eq, ← state, ← misses]
    rfl
  · exact ⟨_, exec_responseTimerExpiry held due, pollUnanswered_faults (by rwa [misses])⟩
  · rw [exec_penStatus held, penStatusArrived_stray stray]
  · exact ⟨_, handled known, recorded, statusHandled_faults fault⟩
  have own (calm) (stays) := statusTaken_own (st := st) (s := s) sound calm stays
  have choice (state) := ownHandling_chooses (v := statusRecorded st s) st state
  have advance (state) := ownHandling_advances (v := statusRecorded st s) st state
  have idle (state) := ownHandling_rests (v := statusRecorded st s) st state
  refine ⟨_, handled known, recorded, ?_, ?_, ?_, ?_, ?_, ?_, ?_, ?_, ?_, ?_, ?_, ?_⟩
  · rw [statusHandled_pdc]
    exact (statusTaken_heard st s).2 sound
  · exact fun identifying clear => statusHandled_chosen sound clear (statusTaken_identifies sound identifying)
  · intro identifying reason needs
    have taken : statusTaken st s = suspendPen (statusRecorded st s) := by
      rw [statusTaken_identifies sound identifying]
      exact phaseChoice_suspends (s := statusRecorded st s) rfl sound needs reason
    obtain ⟨claim, pdc⟩ := statusHandled_suspends taken
    rw [pdc]
    exact ⟨rfl, rfl, claim, rfl⟩
  · intro busy clear reason
    obtain ⟨claim, pdc⟩ := statusHandled_suspends (statusTaken_suspends sound clear reason busy)
    rw [pdc]
    exact ⟨rfl, rfl, claim, rfl, rfl, rfl, rfl, rfl⟩
  · exact fun suspended old clear => statusHandled_chosen sound clear (statusTaken_resumes sound old clear suspended)
  · intro suspended reason
    refine statusHandled_rests (n := 10000) ?_ (by rw [suspended]; rfl)
    rw [own (by rw [suspended]; nofun) (fun _ _ => reason), idle (.inl (.inl suspended))]
  · intro precharge _ clear above below
    refine statusHandled_enters (ph := .charge) ?_
    rw [own (fun _ _ => clear) (by rw [precharge]; nofun), advance (.inl precharge),
      advancePhase_charge (v := statusRecorded st s) precharge above below]
  · intro state _ clear high
    refine statusHandled_enters (ph := .topoff) ?_
    have running : s.pdc.state ≠ .suspended := by rcases state with e | e <;> rw [e] <;> nofun
    rw [own (fun _ _ => clear) (absurd · running), advance state.symm, advancePhase_topoff high]
  · intro state _ clear
    have running : s.pdc.state ≠ .suspended := by rcases state with e | ⟨e, -⟩ | ⟨e, -⟩ <;> rw [e] <;> nofun
    refine statusHandled_rests (n := 1000) ?_ (by rcases state with e | ⟨e, -⟩ | ⟨e, -⟩ <;> rw [e] <;> rfl)
    rw [own (fun _ _ => clear) (absurd · running)]
    rcases state with topoff | below
    · exact idle (.inl (.inr (.inl topoff)))
    · rw [advance (below.symm.imp And.left And.left), advancePhase_rests (v := statusRecorded st s) below]
  · intro waits _ clear
    refine statusHandled_rests (n := 10000) ?_ (by rw [waits]; rfl)
    rw [own (fun _ _ => clear) (by rw [waits]; nofun), idle (.inl (.inr (.inr waits)))]
  · intro full charged
    refine statusHandled_rests (n := 10000) ?_ (by rw [full]; rfl)
    rw [own (by rw [full]; nofun) (by rw [full]; nofun), idle (.inr ⟨full, charged⟩)]
  · intro full below clear
    refine statusHandled_chosen sound clear ?_
    rw [own (fun _ _ => clear) (by rw [full]; nofun), choice (.inr ⟨full, below⟩)]

end Sys2Proof.Machine

/-!
A status of another pen (R126 step 1).
-/
namespace Sys2Proof.Machine
open Sys2Proof.Claims

variable {s t u : State} {st old : PenStatus} {ph : ChargePhase} {amount : Nat} {f : PenFault}

/-- R126 step 1: PDC drops the pen it knows and identifies another one. -/
def penSwapped (s : State) : State := pdcStep (some .penInserted) enterIdentifying (pdcStep (some .penRemoved) removePen s)

theorem penSwapped_pdc (s : State) :
    (penSwapped s).pdc =
      { s.pdc with
        setpoint := 0, poll := none, response := none, outstanding := false, misses := 0, fault := none
        reasons := bitDrop s.pdc.reasons SuspendReason.temp.idx, last := none, remembered := none
        cycleOpen := false, chargeMs := 0, prechargeMs := 0, runStart := none, grant := 0, state := .identifying } := by
  have removed := (pdcStep_pdc (some .penRemoved) removePen s).trans (removePen_pdc s)
  rw [penSwapped, pdcStep_pdc, enterIdentifying, removed]

/-- What the swap may change. -/
def swapParts : List Part := [.penClaim, .grants, .polls, .charging, .penLast, .live] ++ wakeParts

theorem penSwapped_changes (s : State) : Changes swapParts s (penSwapped s) := by
  have removed : Changes swapParts s (pdcStep (some .penRemoved) removePen s) :=
    ((removePen_changes s).mono (by decide)).trans ((pdcStep_reports (some .penRemoved) removePen s).mono (by decide))
  have entered : Changes swapParts (pdcStep (some .penRemoved) removePen s)
      (enterIdentifying (pdcStep (some .penRemoved) removePen s)) := by
    refine ⟨fun p hp => ?_⟩; cases p <;> first | exact absurd (by decide) hp | rfl
  exact (removed.trans entered).trans ((pdcStep_reports (some .penInserted) enterIdentifying _).mono (by decide))

theorem penSwapped_clears (h : s.pdc.fault = some f) : bitHas (penSwapped s).cm.live (penCond f).idx = false := by
  rw [penSwapped, pdcStep_flags _ enterIdentifying _ _ (penCond_other f)]
  change bitHas (pdcStep (some .penRemoved) removePen s).cm.live _ = false
  rw [pdcStep_flags _ removePen _ _ (penCond_other f)]
  exact removePen_clears h

theorem otherPen_of_serial (last : s.pdc.last = some old) (known : s.pdc.state ≠ .identifying)
    (other : old.serial ≠ st.serial) : otherPen st s.pdc = true := by
  unfold otherPen
  rw [last]
  simp [known, other]

theorem pollAnswered_again (h : (s.pdc.response, s.pdc.outstanding, s.pdc.misses) = (none, false, 0)) :
    pollAnswered s = s := by
  obtain ⟨response, outstanding, misses⟩ := Prod.mk.inj h |>.imp id Prod.mk.inj
  have kept : { s.pdc with response := none, outstanding := false, misses := 0 } = s.pdc := by
    rw [← response, ← outstanding, ← misses]
  exact congrArg (fun p => { s with pdc := p }) kept

theorem penStatusArrived_other (asked : s.pdc.outstanding = true) (last : s.pdc.last = some old)
    (known : s.pdc.state ≠ .identifying) (other : old.serial ≠ st.serial) (inRange : saturateStatus st = st) :
    penStatusArrived true st s = statusHandled st (penSwapped (pollAnswered s)) := by
  have arrives : penStatusArrived true st s = handleStatus (saturateStatus st) (pollAnswered s) := if_pos ⟨rfl, asked⟩
  have differs : otherPen st (pollAnswered s).pdc = true := otherPen_of_serial (s := pollAnswered s) last known other
  have swaps : handleStatus st (pollAnswered s) =
      pdcStep none (fun v => endPoll (takeStatus st v)) (penSwapped (pollAnswered s)) :=
    congrArg (pdcStep none fun v => endPoll (takeStatus st v)) (if_pos differs)
  have answered : pollAnswered (penSwapped (pollAnswered s)) = penSwapped (pollAnswered s) :=
    pollAnswered_again (by rw [penSwapped_pdc])
  rw [arrives, inRange, swaps, statusHandled, answered]

theorem saturateStatus_inRange (cell : st.cell ≤ 4500) (low : -20 ≤ st.temp) (high : st.temp ≤ 80)
    (charge : st.charge ≤ 100) : saturateStatus st = st := by
  unfold saturateStatus clampInt
  rw [min_eq_right cell, min_eq_right high, max_eq_right low, min_eq_right charge]

theorem tempReasons_mild (set : BitVec 3) (low : 3 ≤ st.temp) (high : st.temp ≤ 42) :
    tempReasons st.temp set = bitDrop set SuspendReason.temp.idx :=
  (if_neg (by omega)).trans (if_pos ⟨low, high⟩)

/-- A phase stands as it does whatever else has changed than what is above the pen in the claim table. -/
theorem phaseFiled_of_frame {m : List Part} (c : Changes m s u) (hm : ∀ p ∈ [Part.capacity, .claims], p ∉ m)
    (h : phaseFiled ph amount u t) : phaseFiled ph amount s t := by
  have capacity : u.rba.capacity = s.rba.capacity := c.same .capacity (hm _ (by decide))
  obtain ⟨base, latch⟩ := Prod.mk.inj (c.same .claims (hm _ (by decide)))
  unfold phaseFiled at h ⊢
  rwa [capacity, base, latch] at h

theorem phaseStands_of_frame {m : List Part} (c : Changes m s u) (hm : ∀ p ∈ [Part.now, .capacity, .claims], p ∉ m)
    (h : phaseStands ph amount u t) : phaseStands ph amount s t := by
  obtain ⟨filed, poll⟩ := h
  have now : u.now = s.now := c.same .now (hm _ (by decide))
  exact ⟨phaseFiled_of_frame c (fun p hp => hm p (List.mem_cons_of_mem _ hp)) filed, by rwa [now] at poll⟩

/-- A phase choice leaves the fault, and the condition flags of a pen that is sound. -/
theorem phaseChoice_charges (last : s.pdc.last = some st) (sound : st.cellFault = false)
    (needs : s.pdc.cycleOpen = true ∨ st.charge < s.settings.pen.recharge) (clear : s.pdc.reasons = 0) :
    (phaseChoice s).pdc.fault = s.pdc.fault ∧ (phaseChoice s).cm = s.cm := by
  rw [phaseChoice_enters last sound needs clear]
  refine ⟨?_, ?_⟩
  · rw [enterPhase_pdc]
    unfold openCycle
    split <;> rfl
  · exact ((enterPhase_changes _ _).cm_eq (by decide)).trans ((openCycle_changes s).cm_eq (by decide))

/-- Settles O48. The pen after the swap is one that PDC is identifying, of which O47's rules say what a status makes. -/
theorem anotherPenStartsAfresh : Obligations.AnotherPenStartsAfresh := by
  intro st old s held asked last known other cell low high charge recharge sound clear
  have arrives : penStatusArrived true st s = statusHandled st (penSwapped (pollAnswered s)) :=
    penStatusArrived_other asked last known other (saturateStatus_inRange cell (by omega) (by omega) (by omega))
  have pdc := penSwapped_pdc (pollAnswered s)
  have clears := fun f hf => penSwapped_clears (s := pollAnswered s) (f := f) hf
  have swap : Changes ([.polls] ++ swapParts) s (penSwapped (pollAnswered s)) :=
    ((pollAnswered_changes s).mono (by decide)).step (penSwapped_changes _) (by decide)
  generalize penSwapped (pollAnswered s) = u at arrives pdc clears swap
  have settings : u.settings = s.settings := swap.settings_eq (by decide)
  have mild : tempReasons st.temp u.pdc.reasons = 0 := by
    rw [tempReasons_mild _ low high, pdc]
    change bitDrop (bitDrop s.pdc.reasons _) _ = 0
    rw [clear]
    decide
  have needs : u.pdc.cycleOpen = true ∨ st.charge < u.settings.pen.recharge := .inr (by rwa [settings])
  have taken : statusTaken st u = phaseChoice (statusRecorded st u) := statusTaken_identifies sound (by rw [pdc])
  obtain ⟨⟨last', -, -, misses⟩, reasons⟩ := statusTaken_heard st u
  obtain ⟨fault, cm⟩ := phaseChoice_charges (s := statusRecorded st u) rfl sound needs mild
  obtain ⟨⟨opened, -, fresh⟩, low', middle', high'⟩ := (statusHandled_chosen sound mild taken).2 needs
  obtain ⟨chargeMs, prechargeMs, limitMin⟩ := fresh (by rw [pdc])
  have handled := statusHandled_pdc st u
  refine ⟨statusHandled st u, (exec_penStatus held true st).trans (congrArg _ arrives), ?_, opened, chargeMs, prechargeMs,
    by rw [limitMin, settings], ?_, ?_, ?_, fun f hf => ?_, ?_⟩
  · rw [handled]
    exact last'
  · rw [handled]
    exact misses
  · rw [handled]
    exact (reasons sound).trans mild
  · rw [handled, taken]
    refine fault.trans ?_
    change u.pdc.fault = none
    rw [pdc]
  · rw [statusHandled, pdcStep_flags none _ _ _ (penCond_other f)]
    change bitHas (statusTaken st u).cm.live _ = false
    rw [taken, cm]
    exact clears f hf
  · rw [← settings]
    exact ⟨fun a => phaseStands_of_frame swap (by decide) (low' a),
      fun a b => phaseStands_of_frame swap (by decide) (middle' a b),
      fun a => phaseStands_of_frame swap (by decide) (high' a)⟩

end Sys2Proof.Machine

/-!
The charge times, the termination run and the pen settings (R135 to R138, R143).
-/
namespace Sys2Proof.Machine
open Sys2Proof.Claims

variable {s t u v : State} {st : PenStatus} {p w : PenSettings} {ph : ChargePhase} {amount current d : Nat}

/-! ### The charge timers (R138) -/

theorem PdcState.charging_iff {st : PdcState} :
    PdcState.charging st = true ↔ st = .precharge ∨ st = .charge ∨ st = .topoff := by
  cases st <;> decide

theorem exec_prechargeTimerExpiry (held : s.held = none) : exec .prechargeTimerExpiry s = .next (prechargeExpired s) :=
  congrArg Host.Outcome.next (whileRunning_running _ held)

theorem exec_safetyTimerExpiry (held : s.held = none) : exec .safetyTimerExpiry s = .next (safetyExpired s) :=
  congrArg Host.Outcome.next (whileRunning_running _ held)

theorem prechargeExpired_faults (running : s.pdc.cycleOpen = true) (state : s.pdc.state = .precharge) :
    faultStands .prechargeTimer 3 (advance (1800000 - s.pdc.prechargeMs) s) (prechargeExpired s) := by
  rw [prechargeExpired, if_pos ⟨running, state⟩]
  exact pdcStep_faultStands none (enterFault_stands .prechargeTimer _)

theorem safetyExpired_faults (running : s.pdc.cycleOpen = true) (charges : PdcState.charging s.pdc.state = true) :
    faultStands .safetyTimer 4 (advance (s.pdc.limitMin * 60000 - s.pdc.chargeMs) s) (safetyExpired s) := by
  rw [safetyExpired, if_pos ⟨running, charges⟩]
  exact pdcStep_faultStands none (enterFault_stands .safetyTimer _)

theorem prechargeExpired_idle (h : s.pdc.cycleOpen = false ∨ s.pdc.state ≠ .precharge) : prechargeExpired s = s :=
  if_neg fun both => h.elim (fun closed => by simp [closed] at both) (· both.2)

theorem safetyExpired_idle (h : s.pdc.cycleOpen = false ∨ ¬ PdcState.charging s.pdc.state = true) : safetyExpired s = s :=
  if_neg fun both => h.elim (fun closed => by simp [closed] at both) (· both.2)

/-! ### The termination run (R135, R136) -/

section
variable (topoff : s.pdc.state = .topoff ∧ s.pdc.grant = 100)
include topoff

theorem penReading_high (high : ¬ current < s.settings.pen.termination) :
    penReading current s = { s with pdc := { s.pdc with runStart := none } } := by
  rw [penReading, if_pos topoff, if_neg high]

theorem penReading_starts (low : current < s.settings.pen.termination) (idle : s.pdc.runStart = none) :
    penReading current s = { s with pdc := { s.pdc with runStart := some s.now } } := by
  rw [penReading, if_pos topoff, if_pos low, idle]

theorem penReading_runs (low : current < s.settings.pen.termination) (run : s.pdc.runStart = some d)
    (early : s.now < d + 3000) :
    penReading current s = s := by
  rw [penReading, if_pos topoff, if_pos low, run]
  exact if_neg (Nat.not_le.mpr early)

theorem penReading_ends (low : current < s.settings.pen.termination) (run : s.pdc.runStart = some d)
    (due : d + 3000 ≤ s.now) :
    penReading current s = pdcStep none reachFull s := by
  rw [penReading, if_pos topoff, if_pos low, run]
  exact if_pos due

end

theorem fullStands_told (c : Option WakeCause) {act : State → State} (h : fullStands u (act s)) :
    fullStands u (pdcStep c act s) := by
  rw [fullStands, pdcStep_pdc, pdcStep_rba]
  exact h

/-- SM has recorded the readings of a scan (R103). -/
def scanRecorded (vsys : Nat) (temp : Int) (pen : Nat) (s : State) : State :=
  { s with sm := ({ s.sm with scanning := false } : Sm).record vsys temp pen }

theorem scanJudged_pen (vsys : Nat) (temp : Int) (pen : Nat) (s : State) :
    (scanJudged vsys temp pen s).pdc = (penReading pen (scanRecorded vsys temp pen s)).pdc ∧
      (scanJudged vsys temp pen s).rba = (penReading pen (scanRecorded vsys temp pen s)).rba := ⟨rfl, rfl⟩

/-- R105: a target that is the band confirms it. -/
theorem confirm_band {α : Type} [DecidableEq α] {target band : α} (candidate : Option α) (same : target = band) :
    (confirm target band candidate).1 = band := by
  rw [confirm_eq, same, ite_self]

/-- R103, R135: a scan that keeps the bands leaves PDC as its reading has left it. -/
theorem exec_scanCompletion_kept {mv ma : Nat} {temp : Int} (held : s.held = none) (on : s.sm.scanning = true)
    (supply : bandOf s.sm.supply (min 5000 mv) = s.sm.supply)
    (thermal : heatOf s.sm.thermal (max (-40) (min 125 temp)) = s.sm.thermal) :
    exec (.scanCompletion mv temp ma) s =
      .next (scanJudged (min 5000 mv) (max (-40) (min 125 temp)) (min 300 ma) s) := by
  rw [exec_scanCompletion mv temp ma held, if_pos on, scanCompleted_same]
  · rw [Sm.scanned_eq]
    exact confirm_band _ supply
  · rw [Sm.scanned_eq]
    exact confirm_band _ thermal

/-! ### The pen settings (R143) -/

theorem penPayload_read {e : Byte} (rest : List Byte) (known : e.toNat ≤ 1) :
    readPen (penOfPayload (e :: rest)) =
      some
        { enable := if e = 0#8 then .enabled else .disabled, maxCurrent := u8 (e :: rest) 1, recharge := u8 (e :: rest) 2
          termination := u8 (e :: rest) 3, safety := u16 (e :: rest) 4 } := by
  have enable : enableOf e.toNat = some (if e = 0#8 then .enabled else .disabled) := by
    by_cases zero : e = 0#8
    · rw [if_pos zero, zero]
      rfl
    · have one : e.toNat = 1 := by
        have : e.toNat ≠ 0 := fun h => zero (BitVec.eq_of_toNat_eq h)
        omega
      rw [if_neg zero, one]
      rfl
  unfold readPen
  rw [show (penOfPayload (e :: rest)).enable = e.toNat from rfl, enable]
  rfl

theorem penPayload_unread {e : Byte} (rest : List Byte) (unknown : 1 < e.toNat) :
    readPen (penOfPayload (e :: rest)) = none := by
  have enable : enableOf e.toNat = none := by
    unfold enableOf
    split
    · omega
    · omega
    · rfl
  unfold readPen
  rw [show (penOfPayload (e :: rest)).enable = e.toNat from rfl, enable]

/-- The suspend-reason set under the new settings. -/
def hostReasons (p : PenSettings) (set : BitVec 3) : BitVec 3 := withReason .host (decide (p.enable = .disabled)) set

theorem hostReasons_eq (p : PenSettings) (set : BitVec 3) :
    hostReasons p set =
      if p.enable = .disabled then bitAdd set SuspendReason.host.idx else bitDrop set SuspendReason.host.idx := by
  unfold hostReasons withReason
  simp only [decide_eq_true_eq]

theorem hostReasons_disabled (off : p.enable = .disabled) (set : BitVec 3) :
    hostReasons p set = bitAdd set SuspendReason.host.idx := if_pos (decide_eq_true off)

theorem hostReasons_enabled (on : p.enable = .enabled) (set : BitVec 3) :
    hostReasons p set = bitDrop set SuspendReason.host.idx := if_neg (by rw [on]; decide)

theorem hostReasons_ne_zero (off : p.enable = .disabled) (set : BitVec 3) : hostReasons p set ≠ 0 := by
  rw [hostReasons_disabled off]
  exact ne_zero_of_bitHas (bitHas_bitAdd_self _ (by decide))

/-- The claim of CHARGE is filed. -/
def ChargeClaimed (s : State) : Prop :=
  s.pdc.state = .charge ∨ s.pdc.state = .waitGrant ∧ s.pdc.remembered = some .charge

/-- PDC has the new settings, and acts on the set. -/
def penJudged (p : PenSettings) (s : State) : State :=
  changeReasons (hostReasons p s.pdc.reasons) { s with settings := { s.settings with pen := p } }

/-- PDC's act on new pen settings (R143). -/
def penReplaced (p : PenSettings) (s : State) : State :=
  if p.maxCurrent ≠ s.settings.pen.maxCurrent
      ∧ ((penJudged p s).pdc.state = .charge ∨
        ((penJudged p s).pdc.state = .waitGrant ∧ (penJudged p s).pdc.remembered = some .charge)) then
    enterPhase .charge (penJudged p s)
  else penJudged p s

theorem replacePen_eq (p : PenSettings) (s : State) : replacePen p s = pdcStep none (penReplaced p) s := rfl

theorem penReplaced_files (new : p.maxCurrent ≠ s.settings.pen.maxCurrent) (claimed : ChargeClaimed (penJudged p s)) :
    penReplaced p s = enterPhase .charge (penJudged p s) := if_pos ⟨new, claimed⟩

theorem penReplaced_rests (h : p.maxCurrent = s.settings.pen.maxCurrent ∨ ¬ ChargeClaimed (penJudged p s)) :
    penReplaced p s = penJudged p s := if_neg fun both => h.elim both.1 (· both.2)

theorem penJudged_settings (p : PenSettings) (s : State) : (penJudged p s).settings = { s.settings with pen := p } :=
  (changeReasons_changes _ _).settings_eq (by decide)

theorem penReplaced_cases (P : State → Prop)
    (files : ChargeClaimed (penJudged p s) → P (enterPhase .charge (penJudged p s)))
    (rests : P (penJudged p s)) : P (penReplaced p s) := by
  unfold penReplaced
  split
  · rename_i h
    exact files h.2
  · exact rests

/-- R128: the claim of CHARGE filed once more is the claim that the phase choice has filed. -/
theorem Chosen.filed_again {w : PenSettings} {m : List Part} (h : Chosen w st u v) (c : Changes m u v)
    (hm : ∀ p ∈ [Part.capacity, .claims], p ∉ m) (settings : v.settings.pen = w) (claimed : ChargeClaimed v) :
    Chosen w st u (enterPhase .charge v) := by
  obtain ⟨full, enters⟩ := h
  have only : ∀ ph amount, phaseFiled ph amount u v → ph = .charge := fun ph amount filed => by
    rcases phaseFiled_state filed with ⟨state, -⟩ | ⟨-, state, remembered⟩
    · rcases claimed with e | ⟨e, -⟩ <;> rw [e] at state <;> cases ph <;> first | rfl | cases state
    · rcases claimed with e | ⟨-, e⟩
      · rw [e] at state
        cases state
      · exact Option.some.inj (remembered.symm.trans e)
  have filed : phaseFiled .charge w.maxCurrent u (enterPhase .charge v) := by
    rw [← settings]
    exact phaseFiled_of_frame c hm (enterPhase_filed .charge v)
  refine ⟨fun closed charged => ?_, fun needs => ?_⟩
  · obtain ⟨state, -⟩ := full closed charged
    rcases claimed with e | ⟨e, -⟩ <;> rw [e] at state <;> cases state
  · obtain ⟨runs, low, -, high⟩ := enters needs
    refine ⟨?_, fun a => ?_, fun _ _ => filed, fun a => ?_⟩
    · rw [cycleRuns, enterPhase_pdc]
      exact runs
    · cases only _ _ (low a)
    · cases only _ _ (high a)

/-- What new pen settings come to (R143). -/
structure PenSet (p : PenSettings) (s t : State) : Prop where
  settings : t.settings = { s.settings with pen := p }
  reasons : t.pdc.reasons = hostReasons p s.pdc.reasons
  suspends : p.enable = .disabled → s.pdc.reasons = 0 →
    PdcState.charging s.pdc.state = true ∨ s.pdc.state = .waitGrant →
    t.pdc.state = .suspended ∧ t.pdc.setpoint = 0 ∧ t.rba.pen = none
  resumes : p.enable = .enabled → s.pdc.state = .suspended → s.pdc.reasons = bitAdd 0 SuspendReason.host.idx →
    ∀ st, s.pdc.last = some st → st.cellFault = false → Chosen p st s t
  files : p.enable = .enabled → s.pdc.reasons = 0 → p.maxCurrent ≠ s.settings.pen.maxCurrent → ChargeClaimed s →
    phaseFiled .charge p.maxCurrent s t
  rests : ¬ ChargeClaimed s ∨ p.maxCurrent = s.settings.pen.maxCurrent →
    (PdcState.charging s.pdc.state = true ∨ s.pdc.state = .waitGrant → s.pdc.reasons = 0 →
      hostReasons p s.pdc.reasons = 0) →
    (s.pdc.state = .suspended → s.pdc.reasons ≠ 0 → hostReasons p s.pdc.reasons ≠ 0) →
    t.pdc = { s.pdc with reasons := t.pdc.reasons } ∧ t.rba = s.rba

/-- New settings concern nothing but the settings, PDC's record and the claim table. -/
theorem PenSet.congr {s' t' : State} (h : PenSet p s t) (old : (s'.settings, s'.pdc, s'.rba) = (s.settings, s.pdc, s.rba))
    (new : (t'.settings, t'.pdc, t'.rba) = (t.settings, t.pdc, t.rba)) : PenSet p s' t' := by
  simp only [Prod.mk.injEq] at old new
  obtain ⟨oldSettings, oldPdc, oldRba⟩ := old
  obtain ⟨newSettings, newPdc, newRba⟩ := new
  obtain ⟨settings, reasons, suspends, resumes, files, rests⟩ := h
  constructor
  all_goals
    simp only [Chosen, fullStands, cycleRuns, phaseFiled, ChargeClaimed, oldSettings, oldPdc, oldRba,
      newSettings, newPdc, newRba]
  · exact settings
  · exact reasons
  · exact suspends
  · exact resumes
  · exact files
  · exact rests

theorem penSettings_changes (p : PenSettings) (s : State) :
    Changes [.penSettings] s { s with settings := { s.settings with pen := p } } := by
  refine ⟨fun q hq => ?_⟩; cases q <;> first | exact absurd (by decide) hq | rfl

/-- What PDC's act on the set may change. -/
def judgedParts : List Part :=
  [.penSettings, .penClaim, .grants, .polls, .charging, .live, .latched, .history, .link, .queue]

theorem penJudged_changes (p : PenSettings) (s : State) : Changes judgedParts s (penJudged p s) :=
  ((penSettings_changes p s).mono (by decide)).step (changeReasons_changes _ _) (by decide)

/-- The new settings and the new set are recorded. -/
def penRecorded (p : PenSettings) (s : State) : State :=
  { s with
    settings := { s.settings with pen := p }
    pdc := { s.pdc with reasons := hostReasons p s.pdc.reasons } }

theorem penReplaced_suspends (off : p.enable = .disabled) (clear : s.pdc.reasons = 0)
    (busy : PdcState.charging s.pdc.state = true ∨ s.pdc.state = .waitGrant) :
    penReplaced p s = suspendPen (penRecorded p s) := by
  have judged : penJudged p s = suspendPen (penRecorded p s) :=
    changeReasons_suspends clear (hostReasons_ne_zero off _) busy
  have idle : ¬ ChargeClaimed (penJudged p s) := by
    rw [judged, ChargeClaimed, suspendPen_pdc]
    exact fun claimed => claimed.elim (nomatch ·) (nomatch ·.1)
  rw [penReplaced_rests (.inr idle), judged]

theorem penReplaced_chosen (clear : hostReasons p s.pdc.reasons = 0) (suspended : s.pdc.state = .suspended)
    (old : s.pdc.reasons ≠ 0) (last : s.pdc.last = some st) (sound : st.cellFault = false) :
    Chosen p st s (penReplaced p s) := by
  have judged : penJudged p s = phaseChoice (penRecorded p s) := by
    unfold penJudged penRecorded
    rw [clear]
    exact changeReasons_resumes old suspended
  have chosen : Chosen p st s (penJudged p s) := by
    rw [judged]
    exact phaseChoice_chosen (s := penRecorded p s) last sound clear
  refine penReplaced_cases (Chosen p st s) (fun claimed => ?_) chosen
  exact chosen.filed_again (penJudged_changes p s) (by decide) (congrArg Settings.pen (penJudged_settings p s)) claimed

theorem penJudged_rests
    (busy : PdcState.charging s.pdc.state = true ∨ s.pdc.state = .waitGrant → s.pdc.reasons = 0 →
      hostReasons p s.pdc.reasons = 0)
    (suspended : s.pdc.state = .suspended → s.pdc.reasons ≠ 0 → hostReasons p s.pdc.reasons ≠ 0) :
    penJudged p s = penRecorded p s := changeReasons_rests busy suspended

theorem ChargeClaimed.running (h : ChargeClaimed s) : s.pdc.state ≠ .suspended := by
  rcases h with state | ⟨state, -⟩ <;> rw [state] <;> nofun

theorem penReplaced_set (p : PenSettings) (s : State) : PenSet p s (penReplaced p s) where
  settings := by
    refine penReplaced_cases (fun t => t.settings = _) (fun _ => ?_) (penJudged_settings p s)
    exact ((enterPhase_changes _ _).settings_eq (by decide)).trans (penJudged_settings p s)
  reasons := by
    have judged : (penJudged p s).pdc.reasons = hostReasons p s.pdc.reasons := changeReasons_reasons _ _
    exact penReplaced_cases (fun t => t.pdc.reasons = _) (fun _ => (enterPhase_reasons _ _).trans judged) judged
  suspends off clear busy := by
    rw [penReplaced_suspends off clear busy, suspendPen_pdc]
    exact ⟨rfl, rfl, suspendPen_pen _⟩
  resumes on suspended set st last sound := by
    refine penReplaced_chosen ?_ suspended ?_ last sound
    · rw [hostReasons_enabled on, set]
      decide
    · rw [set]
      decide
  files on none new claimed := by
    have clear : hostReasons p s.pdc.reasons = 0 := by
      rw [hostReasons_enabled on, none]
      decide
    have judged : penJudged p s = penRecorded p s := penJudged_rests (fun _ _ => clear) fun e => absurd e claimed.running
    rw [penReplaced_files new (by rw [judged]; exact claimed), judged]
    exact enterPhase_filed .charge (penRecorded p s)
  rests kept busy suspended := by
    have judged : penJudged p s = penRecorded p s := penJudged_rests busy suspended
    have idle : p.maxCurrent = s.settings.pen.maxCurrent ∨ ¬ ChargeClaimed (penJudged p s) := by
      rw [judged]
      exact kept.symm
    rw [penReplaced_rests idle, judged]
    exact ⟨rfl, rfl⟩

theorem replacePen_set (p : PenSettings) (s : State) : PenSet p s (replacePen p s) :=
  (penReplaced_set p s).congr rfl <| by
    have told : Changes wakeParts (penReplaced p s) (replacePen p s) := pdcStep_reports none (penReplaced p) s
    rw [told.settings_eq (by decide), told.pdc_eq (by decide), told.rba_eq (by decide)]

theorem replacePen_carried (p : PenSettings) (s : State) : Carried s (replacePen p s) := by
  have recorded : Carried s { s with settings := { s.settings with pen := p } } := .replaced rfl rfl rfl
  have judged : Carried s (penJudged p s) := recorded.trans (changeReasons_carried _ _)
  refine pdcStep_carried (f := penReplaced p) (penReplaced_cases (Carried s) (fun _ => ?_) judged)
  exact judged.trans (.silent (enterPhase_changes _ _) (by decide))

/-- The request's answer races with PDC's act, and leaves what it comes to. -/
theorem setPenCharging_replied {tag : Byte} {payload : List Byte} {r : Reply} (h : Ready .setPenCharging s)
    (p : PenSettings) :
    let t := raceLc (answer (freePlace s.lc.slots) r) (replacePen p) (inSlot .setPenCharging tag payload .taken s)
    Answered .setPenCharging tag r t ∧ PenSet p s t ∧
      Changes (([.penSettings, .assembler] : List Part) ++ penParts) s t := by
  refine raced_request (P := fun t => PenSet p s t ∧ Changes _ s t) h payload (fun v => (replacePen_carried p v).told)
    (fun g kept => ?_) fun v g => ?_
  · obtain ⟨set, frame⟩ := kept
    refine ⟨set.congr rfl ?_, frame.step g (by decide)⟩
    rw [g.settings_eq (by decide), g.pdc_eq (by decide), g.rba_eq (by decide)]
  · refine ⟨(replacePen_set p v).congr ?_ rfl, (g.mono (by decide)).step (replacePen_changes p v) (by decide)⟩
    rw [g.settings_eq (by decide), g.pdc_eq (by decide), g.rba_eq (by decide)]

/-- Settles O49. The new settings are told once, of PDC's act alone (`PenSet`), and stand whichever of the act and the reply
comes first. -/
theorem penTimersAndSettings : Obligations.PenTimersAndSettings := by
  intro tag e rest mv temp ma s length p asked new charging low host
  have charges : charging ↔ PdcState.charging s.pdc.state = true := PdcState.charging_iff.symm
  refine ⟨fun held running state => ?_, fun held running state => ?_, fun held idle => ?_, fun held idle => ?_,
    fun held on topoff grant supply thermal => ?_, fun ready known => ?_, fun ready unknown => ?_⟩
  · exact ⟨_, exec_prechargeTimerExpiry held, prechargeExpired_faults running state⟩
  · exact ⟨_, exec_safetyTimerExpiry held, safetyExpired_faults running (charges.mp state)⟩
  · rw [exec_prechargeTimerExpiry held, prechargeExpired_idle idle]
  · rw [exec_safetyTimerExpiry held, safetyExpired_idle (idle.imp_right fun h => h ∘ charges.mpr)]
  · have state : (scanRecorded (min 5000 mv) (max (-40) (min 125 temp)) (min 300 ma) s).pdc.state = .topoff ∧
        (scanRecorded (min 5000 mv) (max (-40) (min 125 temp)) (min 300 ma) s).pdc.grant = 100 := ⟨topoff, grant⟩
    obtain ⟨pdc, rba⟩ := scanJudged_pen (min 5000 mv) (max (-40) (min 125 temp)) (min 300 ma) s
    refine ⟨_, exec_scanCompletion_kept held on supply thermal, fun high => ?_, fun low idle => ?_,
      fun low r run early => ?_, fun low r run due => ?_⟩
    · rw [pdc, penReading_high state high]
      rfl
    · rw [pdc, penReading_starts state low idle]
      rfl
    · rw [pdc, penReading_runs state low run early]
      rfl
    · rw [fullStands, pdc, rba, penReading_ends state low run due]
      exact fullStands_told none (reachFull_stands (scanRecorded _ _ _ s))
  · have served : serve (freePlace s.lc.slots) .setPenCharging p (inSlot .setPenCharging tag p .taken s) =
        raceLc (answer (freePlace s.lc.slots) (Reply.clamped (decide (new ≠ asked)) (.penSettings new))) (replacePen new)
          (inSlot .setPenCharging tag p .taken s) := by
      change serveSetPenCharging _ p _ = _
      rw [serveSetPenCharging, penPayload_read rest known]
      rfl
    have result : Reply.clamped (decide (new ≠ asked)) (.penSettings new) =
        { result := if new = asked then .ok else .clamped, content := .penSettings new } := by
      by_cases same : new = asked <;> simp [Reply.clamped, same]
    obtain ⟨answered, set, frame⟩ := setPenCharging_replied (tag := tag) (payload := p)
      (r := Reply.clamped (decide (new ≠ asked)) (.penSettings new)) ready new
    refine ⟨_, (exec_request_ready ready (congrArg (· + 1) length)).trans (congrArg _ served), set.settings,
      result ▸ answered, set.reasons.trans (hostReasons_eq new _),
      fun off clear busy => set.suspends off clear (busy.imp_left charges.mp),
      set.resumes, set.files, fun kept calm => ?_, frame⟩
    refine set.rests (kept.imp_left fun h claimed => ?_) (fun busy none => ?_) fun suspended old => ?_
    · exact claimed.elim h.1 fun waits => h.2.elim (· waits.1) (· waits.2)
    · rcases calm with ⟨on, -⟩ | ⟨-, off, idle⟩
      · rw [hostReasons_enabled on, none]
        decide
      · exact (busy.elim (off ∘ charges.mpr) idle).elim
    · rcases calm with ⟨on, running | stays | clear⟩ | ⟨off, -⟩
      · exact absurd suspended running
      · rwa [hostReasons_enabled on]
      · exact absurd clear old
      · exact hostReasons_ne_zero off _
  · refine exec_request_replied (u := id) ready (congrArg (· + 1) length) ?_ rfl
    change serveSetPenCharging _ p _ = _
    rw [serveSetPenCharging, penPayload_unread rest unknown]
    rfl

end Sys2Proof.Machine

/-!
A millisecond (R137, R138).
-/
namespace Sys2Proof.Machine
open Sys2Proof.Claims

variable {s : State} {k : ResetKind}

/-- On an empty queue a step is an idle millisecond. -/
theorem step_idle (empty : s.pending = []) : step s = .next (whileRunning (advance 1) s) := by
  unfold step
  rw [empty]
  rfl

theorem endReset_pending (k : ResetKind) (s : State) : (endReset k s).pending = s.pending :=
  (endReset_changes k s).same .waiting (by decide)

/-- Settles O2. The charge times of a millisecond are those of `Pdc.elapse`. -/
theorem idleStepIsOneMillisecond : Obligations.IdleStepIsOneMillisecond := by
  intro s empty p
  refine ⟨fun held => ?_, fun held low => ?_, fun k held high => ?_⟩
  · rw [step_idle empty, whileRunning_running _ held]
    rfl
  · rw [step_idle empty, whileRunning_held _ held low]
  · rw [step_idle empty, whileRunning_soft _ held high, step_idle ((endReset_pending k s).trans empty),
      whileRunning_running _ (endReset_held k s)]

end Sys2Proof.Machine
